-- ==== Sys2Proof/Word.lean ====
section
/-! DEFINITION. The words of the ZS-640: the units of 00_scope.md, "Units", and the plainest arithmetic on them. -/

namespace Sys2Proof

/-- A byte of a link frame (R161). -/
abbrev Byte := BitVec 8

/-- A two-byte field of a link frame (R167). -/
abbrev Half := BitVec 16

/-- A time: a 48-bit count of 25 ns ticks, which wraps (R177). -/
abbrev Tick := BitVec 48

/-- A head position: 0 to 1,048,575, modulo 2^20. -/
abbrev HeadCount := BitVec 20

/-- A mirror position: 0 to 16,383, modulo 16,384. -/
abbrev MirrorCount := BitVec 14

/-- A fine vertical angle: 0 to 262,143, sixteen steps a mirror count. -/
abbrev FineAngle := BitVec 18

/-- A range in 0.1 mm: 0 to 16,777,215. -/
abbrev Range := BitVec 24

/-- An amplitude: 0 to 4,095. -/
abbrev Amplitude := BitVec 12

/-- A running 16-bit number: a pulse sequence (R50), a photo serial (R141), a token (R110), a sweep id (R4). -/
abbrev Serial := BitVec 16

/-- Head counts in one head turn. -/
abbrev headTurn : Nat := 1048576

/-- Mirror counts in one revolution. -/
abbrev mirrorTurn : Nat := 16384

/-- The tick `n` ticks after `t`, modulo 2^48 (R177). -/
def ticksAfter (t : Tick) (n : Nat) : Tick := t + BitVec.ofNat 48 n

/-- The ticks from `a` to `b`, modulo 2^48 (R177). -/
def ticksFrom (a b : Tick) : Nat := (b - a).toNat

/-- Count one more, saturating at `top`. -/
def satInc (top n : Nat) : Nat := if n < top then n + 1 else n

end Sys2Proof
end

