-- ==== Sys2Proof/Syntax.lean ====
section
/-! DEFINITION. The commands: one constructor of `Instr` for each row of spec/opcode_table.json, with its operands; and
the host commands as the dispatcher knows them (`HostCmd`, R166). -/

namespace Sys2Proof

/-- An echo as the front end sends it: a raw range and an amplitude (R52). -/
structure RawEcho where
  range     : Range
  amplitude : Amplitude
  deriving DecidableEq, Repr

/-- A return record as it completes at the return port (R52, R56): the fields it carries, the echo count it states, the
echoes it carries, and whether its check value agrees with its other fields (log 33). -/
structure WireRecord where
  seqLow      : Byte
  seqHigh     : Option Byte
  echoCount   : Byte
  echoes      : List RawEcho
  checkAgrees : Bool
  deriving DecidableEq, Repr

/-- The pixels an image lists: pixel number 2,048 × row + column, and a value of 12 bits (log 21). -/
abbrev PixelList := List (Nat × BitVec 12)

/-- A host command of the catalogue (R166) with its payload fields at the widths R167 gives them, in payload order.
A field may hold any value of its width; the command's own checks judge it. -/
inductive HostCmd where
  | statusQuery (clear : Byte)
  | reset
  | profileSet (bank speed : Byte) (pulses windowStart windowEnd azStep : Half) (echoMode keepEmpty : Byte)
  | profileGet (bank : Byte)
  | sweepStart (sweepId : Half) (kind bank : Byte) (a0 length : BitVec 24)
  | sweepAbort
  | gapsGet
  | mirrorSpin (speed : Byte)
  | mirrorPark (count : Half)
  | mirrorStop
  | headSlew (azimuth : BitVec 24)
  | headHold
  | headRelease
  | emitRequest (duration : Byte)
  | emitRenew (token : Half) (duration : Byte)
  | emitOff
  | calSet (page index : Byte) (value : Half)
  | calGet (page : Byte)
  | calCommit (mask : Byte)
  | calRevert (mask : Byte)
  | stationSet (station : Byte) (azimuth : BitVec 24) (elevation : Half) (count : Byte)
      (exposures : List (BitVec 24 × Byte))
  | stationClear (station : Byte)
  | stationGet (station : Byte)
  | photoRunStart
  | photoRunAbort
  | subscribe (condition edge : Byte)
  | prioritySet (source level : Byte)
  | timebaseRestore
  deriving DecidableEq, Repr

/-- The commands of the table. A host command carries its tag (R161) and its payload fields; an event carries what the
outside world brings with it: encoder counts, an input's new level, a record, an image, bytes (log 4, log 6, log 30). -/
inductive Instr where
  | statusQuery (tag clear : Byte)
  | reset (tag : Byte)
  | profileSet (tag bank speed : Byte) (pulses windowStart windowEnd azStep : Half) (echoMode keepEmpty : Byte)
  | profileGet (tag bank : Byte)
  | sweepStart (tag : Byte) (sweepId : Half) (kind bank : Byte) (a0 length : BitVec 24)
  | sweepAbort (tag : Byte)
  | gapsGet (tag : Byte)
  | mirrorSpin (tag speed : Byte)
  | mirrorPark (tag : Byte) (count : Half)
  | mirrorStop (tag : Byte)
  | headSlew (tag : Byte) (azimuth : BitVec 24)
  | headHold (tag : Byte)
  | headRelease (tag : Byte)
  | emitRequest (tag duration : Byte)
  | emitRenew (tag : Byte) (token : Half) (duration : Byte)
  | emitOff (tag : Byte)
  | calSet (tag page index : Byte) (value : Half)
  | calGet (tag page : Byte)
  | calCommit (tag mask : Byte)
  | calRevert (tag mask : Byte)
  | stationSet (tag station : Byte) (azimuth : BitVec 24) (elevation : Half) (count : Byte)
      (exposures : List (BitVec 24 × Byte))
  | stationClear (tag station : Byte)
  | stationGet (tag station : Byte)
  | photoRunStart (tag : Byte)
  | photoRunAbort (tag : Byte)
  | subscribe (tag condition edge : Byte)
  | prioritySet (tag source level : Byte)
  | timebaseRestore (tag : Byte)
  | unknownKind (tag kind : Byte) (payload : List Byte)
  | inboundFrameComplete (bytes : List Byte)
  | outboundFrameEnd
  | powerOnReset
  | resetInputRelease
  | softResetProceed
  | loadingComplete (midRecord : Bool)
  | referenceLoss
  | referenceReturn
  | indexPulse (head : HeadCount)
  | prepareTimeout
  | pulseOpportunity (mirror : MirrorCount) (head : HeadCount)
  | returnRecordComplete (record : WireRecord)
  | returnTimeout
  | pointHandover
  | spinupTimeout
  | indexLoss
  | parkTimeout
  | parkSettleExpiry
  | parkLost
  | parkDistanceChange (mirror : MirrorCount)
  | mirrorDriverFault (asserted : Bool)
  | headDistanceChange (head : HeadCount)
  | headSettleExpiry
  | slewTimeout
  | followingError (head : HeadCount)
  | headDriverFault (asserted : Bool)
  | ilkChange (high : Bool)
  | leaseExpiry
  | pageWriteEnd (agrees : Bool)
  | positioningTimeout
  | midExposureSample (head : HeadCount) (mirror : MirrorCount)
  | exposureEnd
  | readoutEnd (image : PixelList)
  | syncPairFound (bytes : List Byte)
  | lengthAbove4096 (bytes : List Byte)
  | supplyLoss
  deriving DecidableEq, Repr

end Sys2Proof
end

