-- ==== Sys2Proof/Decode.lean ====
section
/-! DEFINITION. Commands from a row's bits. No row of spec/opcode_table.json gives bits ("fields": [], no "fixed"), so no
word spells a command; the payload bytes of host commands are read in Machine/Operands.lean (R167). -/

namespace Sys2Proof

/-- The command that a word spells by the table's bits: none, since no row of the table gives bits. -/
def decodeTableWord (_nbits _w : Nat) : Option Instr := none

end Sys2Proof
end

