-- ==== Sys2Proof/Config.lean ====
section
/-! DEFINITION. What the spec leaves open: free values, constants without a body, each drawn with the plain counter
`State.freeDraw` or applied to what it depends on (log 31). Nothing can evaluate them, so what holds of the model holds
whatever they are. -/

namespace Sys2Proof.Config

/-- The place that the next of several events due at one tick takes among the others (log 2): of the draw and of the
number of events already placed. -/
opaque raceOrder : Nat → Nat → Nat

/-- Whether the read-back of a store page agrees (R132), when the page write's own end brings the event (log 10). -/
opaque readBackAgrees : Nat → Bool

/-- The image the sensor has transferred (R149), when the readout's own end brings the event (log 10). -/
opaque sensorImage : Nat → List (Nat × BitVec 12)

/-- Whether a value of a page cut off in its write is the new one (R135, log 11): of the draw and of the value's place. -/
opaque cutTakesNew : Nat → Nat → Bool

/-- Whether the check value of a page cut off in its write agrees with what it then holds (R135, log 11). -/
opaque cutCheckAgrees : Nat → Bool

/-- Whether the check value of a page whose verify failed agrees with what it then holds (R132, log 11). -/
opaque failedCheckAgrees : Nat → Bool

/-- Whether a following error that is no whole number of head counts is kept as the next whole count above it (R96,
log 12): of the error in 1/80,000,000 head counts. -/
opaque followingRoundsUp : Int → Bool

end Sys2Proof.Config
end

