-- ==== Sys2Proof/Machine/State.lean ====
section
/-! DEFINITION. The state of the ZS-640 as plain data, block by block (00_scope.md, "Blocks"), and its value after reset. -/

namespace Sys2Proof.Machine

/-! ### Names the spec writes in capitals -/

/-- The operation that holds the head or the mirror (R72, R91). -/
inductive Owner where
  | none | sweep | photo
  deriving DecidableEq, Repr

/-- How the part came to start up (R183). -/
inductive ResetCause where
  | powerOn | soft
  deriving DecidableEq, Repr

/-- Where the part stands towards its resets (R181, R182): without supply (R135), with the reset input asserted, loading,
running, or in the reset wait of a soft reset (log 26). -/
inductive Phase where
  | off | held | loading | running | resetWait
  deriving DecidableEq, Repr

/-- The timebase source (R178). -/
inductive TimeSource where
  | external | fallback
  deriving DecidableEq, Repr

/-- The echo mode of a profile (R1). -/
inductive EchoMode where
  | first | last | strongest | all
  deriving DecidableEq, Repr

/-- Pulses per line (R1). -/
inductive PulseCount where
  | p512 | p1024 | p2048 | p4096 | p8192
  deriving DecidableEq, Repr

def PulseCount.toNat : PulseCount → Nat
  | .p512 => 512 | .p1024 => 1024 | .p2048 => 2048 | .p4096 => 4096 | .p8192 => 8192

inductive SweepState where
  | idle | preparing | runup | scanning | closing
  deriving DecidableEq, Repr

inductive SweepKind where
  | full | patch
  deriving DecidableEq, Repr

inductive SweepResult where
  | none | complete | completeWithGaps | interrupted | aborted
  deriving DecidableEq, Repr

inductive SweepCause where
  | none | leaseEnded | interlock | headFault | prepareTimeout | hostAbort
  deriving DecidableEq, Repr

inductive SlotState where
  | free | filling | sealed | draining
  deriving DecidableEq, Repr

inductive FireMode where
  | firing | stopped
  deriving DecidableEq, Repr

inductive MatcherState where
  | matching | hunt
  deriving DecidableEq, Repr

inductive MirrorState where
  | stopped | spinup | coarse | fine | parking | parked | stalled
  deriving DecidableEq, Repr

inductive StallReason where
  | none | spinupTimeout | indexLoss | parkTimeout | parkLost | driver
  deriving DecidableEq, Repr

inductive HeadState where
  | unpowered | idle | slewing | settling | sweeping | fault
  deriving DecidableEq, Repr

inductive HeadFault where
  | none | slewTimeout | following | driver
  deriving DecidableEq, Repr

inductive SlewDirection where
  | positive | negative
  deriving DecidableEq, Repr

inductive LecState where
  | lockedOut | off | leased
  deriving DecidableEq, Repr

inductive LeaseEnd where
  | none | expired | emitOff | interlock
  deriving DecidableEq, Repr

inductive StoreState where
  | loading | idle | writing
  deriving DecidableEq, Repr

inductive StationState where
  | empty | planned | done | missed
  deriving DecidableEq, Repr

/-- The run state (R141). R141 lists its values in two orders; the link numbers them in the order of the field table, EXPOSING 2
and WAIT_FRAME 3, which is the model's choice (R167, log 36). -/
inductive RunState where
  | idle | positioning | exposing | waitFrame | readout
  deriving DecidableEq, Repr

inductive RunResult where
  | none | complete | aborted | interrupted
  deriving DecidableEq, Repr

inductive RunCause where
  | none | hostAbort | headFault | mirrorStall
  deriving DecidableEq, Repr

inductive FrameState where
  | free | exposing | readout | ready | draining
  deriving DecidableEq, Repr

inductive RxState where
  | hunt | header | payload
  deriving DecidableEq, Repr

/-- The four outbound sources with their numbers (R171). -/
inductive Source where
  | reply | event | line | tile
  deriving DecidableEq, Repr

/-- The eight conditions, in the order of the EVENT layout (R170). -/
inductive Condition where
  | mirrorCoarse | mirrorFine | interlockOk | emitLeased | headIdle | timebaseExternal | ringHigh | framesFull
  deriving DecidableEq, Repr

/-- An edge setting (R174). -/
inductive Edge where
  | none | rise | fall | both
  deriving DecidableEq, Repr

/-! ### The records of the blocks -/

/-- A scan profile bank (R1). -/
structure Profile where
  speed       : Fin 4
  pulses      : PulseCount
  windowStart : Nat
  windowEnd   : Nat
  azStep      : Nat
  echoMode    : EchoMode
  keepEmpty   : Bool
  deriving DecidableEq, Repr

/-- The default profile (R1). -/
def Profile.default : Profile :=
  { speed := 2, pulses := .p4096, windowStart := 1366, windowEnd := 15018, azStep := 128, echoMode := .all,
    keepEmpty := false }

/-- The contents of the five pages, working or stored (R120). -/
structure Pages where
  vangle          : Vector Int 64
  hangle          : Vector Int 64
  rangeOffset     : Int
  walk            : Vector Int 16
  cameraAzimuth   : Int
  cameraElevation : Int
  banks           : Vector Profile 4
  deriving DecidableEq, Repr

/-- The factory defaults of all five pages (R120). -/
def Pages.defaults : Pages :=
  { vangle := Vector.replicate 64 0, hangle := Vector.replicate 64 0, rangeOffset := 0, walk := Vector.replicate 16 0,
    cameraAzimuth := 0, cameraElevation := 0, banks := Vector.replicate 4 Profile.default }

/-- A set of pages: page `p` is in the mask when bit `p` is 1 (R125). -/
abbrev PageMask := BitVec 5

/-- The outcome of a page write (R132): the page, and whether it ended OK. -/
abbrev PageOutcome := Fin 5 × Bool

/-- The Calibration Unit with the Calibration Store (R120, R125). -/
structure Cal where
  working       : Pages
  unsaved       : PageMask
  stored        : Pages
  checkAgrees   : PageMask
  invalid       : PageMask
  state         : StoreState
  commitMask    : PageMask
  page          : Option (Fin 5)
  pageWriteEnd  : Option Tick
  outcomes      : List PageOutcome
  lastCommit    : Option (PageMask × List PageOutcome)
  defaulted     : PageMask
  deriving DecidableEq, Repr

/-- A gap list entry (R20). -/
structure Gap where
  offset : Nat
  length : Nat
  deriving DecidableEq, Repr

/-- The gap list (R20). -/
structure GapList where
  entries     : List Gap
  reference   : HeadCount
  overflow    : Bool
  lastChanger : Serial
  deriving DecidableEq, Repr

/-- The Scan Control Unit: sweep record (R4), prepare timer and gap list. -/
structure Scu where
  state        : SweepState
  sweepId      : Serial
  kind         : SweepKind
  profile      : Profile
  a0           : HeadCount
  lines        : Nat
  k            : Nat
  clean        : Nat
  flagged      : Nat
  lostNoLock   : Nat
  lostNoSlot   : Nat
  result       : SweepResult
  endCause     : SweepCause
  startTick    : Tick
  endTick      : Tick
  prepareTimer : Option Tick
  gaps         : GapList
  deriving DecidableEq, Repr

/-- An echo of a point: its corrected range and its amplitude (R33). -/
structure Echo where
  range     : Range
  amplitude : Amplitude
  deriving DecidableEq, Repr

/-- The saturated flag (R33). -/
def Echo.saturated (e : Echo) : Bool := e.amplitude == 4095#12

/-- A point record (R33); its echo count is the length of its echo list. -/
structure Point where
  pulse   : Nat
  vangle  : FineAngle
  azimuth : HeadCount
  echoes  : List Echo
  deriving DecidableEq, Repr

/-- A line slot: state, line header (R30), pulse counters (R31), pulse position state (R29), points (R34) and the number of
chunks sent (R40). -/
structure LineSlot where
  state            : SlotState
  sweepId          : Serial
  lineIndex        : Nat
  azimuth          : HeadCount
  openTick         : Tick
  echoMode         : EchoMode
  keepEmpty        : Bool
  truncated        : Bool
  speedDeviation   : Bool
  returnLoss       : Bool
  timebaseFallback : Bool
  scheduled        : Nat
  fired            : Nat
  skipped          : Nat
  matched          : Nat
  lost             : Nat
  omittedEmpty     : Nat
  next             : Nat
  mode             : FireMode
  points           : List Point
  chunksSent       : Nat
  deriving DecidableEq, Repr

/-- A FREE slot: its other fields have no meaning and stand at one fixed value (log 27). -/
def LineSlot.free : LineSlot :=
  { state := .free, sweepId := 0, lineIndex := 0, azimuth := 0, openTick := 0, echoMode := .first, keepEmpty := false,
    truncated := false, speedDeviation := false, returnLoss := false, timebaseFallback := false, scheduled := 0,
    fired := 0, skipped := 0, matched := 0, lost := 0, omittedEmpty := 0, next := 0, mode := .firing, points := [],
    chunksSent := 0 }

/-- What a SWEEP_END report carries (R18). -/
structure SweepEnd where
  sweepId    : Serial
  kind       : SweepKind
  result     : SweepResult
  endCause   : SweepCause
  lines      : Nat
  decided    : Nat
  notRun     : Nat
  clean      : Nat
  flagged    : Nat
  lostNoLock : Nat
  lostNoSlot : Nat
  gapEntries : Nat
  overflow   : Bool
  startTick  : Tick
  endTick    : Tick
  deriving DecidableEq, Repr

/-- An item of the LINE source (R39). -/
inductive LineItem where
  | slot (i : Fin 8)
  | sweepEnd (r : SweepEnd)
  deriving DecidableEq, Repr

/-- The Line Assembler: the ring (R26), the ring position (R27) and the LINE source (R39). -/
structure Las where
  slots    : Vector LineSlot 8
  position : Fin 8
  source   : List LineItem
  deriving DecidableEq, Repr

/-- A fire log entry (R51). -/
structure FireEntry where
  seq    : Serial
  slot   : Fin 8
  pulse  : Nat
  mirror : MirrorCount
  head   : HeadCount
  tick   : Tick
  deriving DecidableEq, Repr

/-- A return record that has passed the check (R57): its echo count is the number of its echoes. -/
structure ReturnRecord where
  seqLow  : Byte
  seqHigh : Option Byte
  echoes  : List RawEcho
  deriving DecidableEq, Repr

/-- The Return Unit (R50, R51, R56, R57, R59, R64) and its fire strobe output (R49, log 20). `discardNext`: the shift stage
holds the rest of a record that was partly assembled when the port was enabled (R56, log 25). -/
structure Rtu where
  fireLog       : List FireEntry
  nextSeq       : Serial
  strobe        : Option Serial
  discardNext   : Bool
  holding       : Option ReturnRecord
  matcher       : MatcherState
  rxRecordError : Nat
  rxOverrun     : Nat
  strayRecords  : Nat
  deriving DecidableEq, Repr

/-- The work of a busy Point Former (R65): the entry, its record, and the tick at which the point is done. -/
structure PointWork where
  entry  : FireEntry
  record : ReturnRecord
  doneAt : Tick
  deriving DecidableEq, Repr

/-- The mirror record (R70) and the mirror's timers, each an expiry tick or stopped. -/
structure Mdu where
  state            : MirrorState
  setSpeed         : Fin 4
  coarseRun        : Nat
  fineRun          : Nat
  measurementStart : Option Tick
  switchMark       : Bool
  lastPeriod       : Nat
  parkTarget       : MirrorCount
  owner            : Owner
  stallReason      : StallReason
  spinupTimer      : Option Tick
  watchdog         : Option Tick
  parkTimer        : Option Tick
  parkSettle       : Option Tick
  parkExcursion    : Option Tick
  deriving DecidableEq, Repr

/-- The head record (R89) and the head's timers. -/
structure Hdu where
  state          : HeadState
  owner          : Owner
  faultReason    : HeadFault
  target         : HeadCount
  direction      : SlewDirection
  rate           : Nat
  referenceStart : Option (HeadCount × Tick)
  lastFollowing  : Int
  slewTimer      : Option Tick
  settleTimer    : Option Tick
  deriving DecidableEq, Repr

/-- The emission record (R106). -/
structure Lec where
  state     : LecState
  ilkHigh   : Bool
  satisfied : Bool
  token     : Option Serial
  expiry    : Option Tick
  duration  : Nat
  nextToken : Serial
  lastEnd   : LeaseEnd
  deriving DecidableEq, Repr

/-- An exposure of a station: time in µs and gain (R137). -/
structure Exposure where
  time : Nat
  gain : Nat
  deriving DecidableEq, Repr

/-- A station table entry (R137). -/
structure Station where
  state     : StationState
  azimuth   : HeadCount
  elevation : MirrorCount
  exposures : List Exposure
  deriving DecidableEq, Repr

/-- An EMPTY entry: its other fields have no meaning and stand at one fixed value (log 27). -/
def Station.empty : Station := { state := .empty, azimuth := 0, elevation := 0, exposures := [] }

/-- A frame slot: state (R151), photo header (R150), image (R151) and the number of its link frames sent (R153). The two
counts of the header are none until the mid-exposure sample. -/
structure FrameSlot where
  state       : FrameState
  station     : Fin 32
  exposure    : Nat
  serial      : Serial
  headAzimuth : Option HeadCount
  mirrorCount : Option MirrorCount
  time        : Nat
  gain        : Nat
  startTick   : Tick
  fallback    : Bool
  image       : PixelList
  framesSent  : Nat
  deriving DecidableEq, Repr

/-- A FREE frame slot (log 27). -/
def FrameSlot.free : FrameSlot :=
  { state := .free, station := 0, exposure := 0, serial := 0, headAzimuth := none, mirrorCount := none, time := 0,
    gain := 0, startTick := 0, fallback := false, image := [], framesSent := 0 }

/-- What a STATION_DONE report carries (R149); its exposures field is the number of its serials. -/
structure StationDone where
  station : Fin 32
  missed  : Bool
  serials : List Serial
  tick    : Tick
  deriving DecidableEq, Repr

/-- What a PHOTO_RUN_END report carries (R155). -/
structure RunEnd where
  result    : RunResult
  endCause  : RunCause
  stations  : Nat
  done      : Nat
  missed    : Nat
  exposures : Nat
  discarded : Bool
  tick      : Tick
  deriving DecidableEq, Repr

/-- An item of the TILE source (R152). -/
inductive TileItem where
  | frame (i : Fin 2)
  | stationDone (r : StationDone)
  | runEnd (r : RunEnd)
  deriving DecidableEq, Repr

/-- The Photo Unit: station table (R137), photo run record (R141), frame store (R151) and TILE source (R152). `serials`
holds the serials of the current station's exposures read out, which its STATION_DONE carries (R149). -/
structure Phu where
  stations         : Vector Station 32
  state            : RunState
  runList          : List (Fin 32)
  position         : Nat
  exposure         : Nat
  slotInUse        : Option (Fin 2)
  positioningEnd   : Option Tick
  phaseEnd         : Option Tick
  done             : Nat
  missed           : Nat
  readOut          : Nat
  result           : RunResult
  endCause         : RunCause
  nextSerial       : Serial
  serials          : List Serial
  slots            : Vector FrameSlot 2
  source           : List TileItem
  deriving DecidableEq, Repr

/-- A frame of the link without its sync bytes, length and check (R161). -/
structure Frame where
  kind    : Byte
  tag     : Byte
  payload : List Byte
  deriving DecidableEq, Repr

/-- The Link Interface (R162, R163, R165, R168). -/
structure Lnk where
  rx        : RxState
  sawC3     : Bool
  assembly  : List Byte
  holding   : Option Frame
  replies   : List Frame
  crcErrors : Nat
  overruns  : Nat
  deriving DecidableEq, Repr

/-- What an event of the event queue carries (R175). -/
inductive EventBody where
  | condition (c : Condition) (level : Bool)
  | mirrorStall (reason : StallReason) (stalledFrom : MirrorState) (owner : Owner) (setSpeed : Fin 4) (lastPeriod : Nat)
  | headFault (reason : HeadFault) (faultedFrom : HeadState) (owner : Owner) (target head : HeadCount) (following : Int)
  | storeDone (mask : PageMask) (outcomes : List PageOutcome)
  deriving DecidableEq, Repr

/-- An event with the tick of its cause (R175). -/
structure Event where
  body : EventBody
  tick : Tick
  deriving DecidableEq, Repr

/-- The Event Reporter: subscription table (R174), event queue and lost_events (R175). -/
structure Evr where
  subscriptions : Vector Edge 8
  queue         : List Event
  lost          : Nat
  deriving DecidableEq, Repr

/-- What the lane is sending: READY (R182), or a frame of a source's item (R172). -/
inductive LaneItem where
  | ready
  | reply
  | event
  | lineChunk (slot : Fin 8)
  | sweepEnd
  | framePart (slot : Fin 2)
  | tileReport
  deriving DecidableEq, Repr

/-- A frame on the lane, with the tick of its last byte (R172). -/
structure Sending where
  item    : LaneItem
  frame   : Frame
  endTick : Tick
  deriving DecidableEq, Repr

/-- The Outbound Arbiter: the three levels that can change (R171) and the lane. -/
structure Oba where
  eventLevel : Fin 3
  lineLevel  : Fin 3
  tileLevel  : Fin 3
  lane       : Option Sending
  deriving DecidableEq, Repr

/-- The Timebase Unit (R177, R178). -/
structure Tbu where
  tick             : Tick
  source           : TimeSource
  referencePresent : Bool
  deriving DecidableEq, Repr

/-- The inputs that are not a field of a block's own record: encoder counts and driver fault inputs (log 6, log 7). -/
structure Pins where
  mirrorCount : MirrorCount
  headCount   : HeadCount
  mirrorFault : Bool
  headFault   : Bool
  deriving DecidableEq, Repr

/-- The whole part. -/
@[ext]
structure State where
  pending    : List Instr
  phase      : Phase
  resetCause : ResetCause
  tbu        : Tbu
  pins       : Pins
  scu        : Scu
  las        : Las
  rtu        : Rtu
  pfm        : Option PointWork
  mdu        : Mdu
  hdu        : Hdu
  lec        : Lec
  cal        : Cal
  phu        : Phu
  lnk        : Lnk
  evr        : Evr
  oba        : Oba
  freeDraw   : Nat
  deriving DecidableEq, Repr

/-! ### How a step can stop -/

/-- A fault that stops the machine: none. The spec stops the part nowhere (its FAULT and STALLED are states of blocks), so
no command raises one; that the type is empty is safe (no behaviour is cut off). -/
inductive Fault where
  deriving DecidableEq, Repr

/-- A refusal to give a command its meaning. -/
inductive Refusal where
  /-- Raised by an arm of `exec` whose command has no meaning yet; no arm does. Safe: the run ends. -/
  | notModelled (mnemonic : String)
  deriving DecidableEq, Repr

/-! ### After reset -/

def Scu.reset : Scu :=
  { state := .idle, sweepId := 0, kind := .full, profile := Profile.default, a0 := 0, lines := 0, k := 0, clean := 0,
    flagged := 0, lostNoLock := 0, lostNoSlot := 0, result := .none, endCause := .none, startTick := 0, endTick := 0,
    prepareTimer := none, gaps := { entries := [], reference := 0, overflow := false, lastChanger := 0 } }

def Las.reset : Las := { slots := Vector.replicate 8 LineSlot.free, position := 0, source := [] }

def Rtu.reset : Rtu :=
  { fireLog := [], nextSeq := 0, strobe := none, discardNext := false, holding := none, matcher := .matching,
    rxRecordError := 0, rxOverrun := 0, strayRecords := 0 }

def Mdu.reset : Mdu :=
  { state := .stopped, setSpeed := 2, coarseRun := 0, fineRun := 0, measurementStart := none, switchMark := false,
    lastPeriod := 0, parkTarget := 0, owner := .none, stallReason := .none, spinupTimer := none, watchdog := none,
    parkTimer := none, parkSettle := none, parkExcursion := none }

def Hdu.reset : Hdu :=
  { state := .unpowered, owner := .none, faultReason := .none, target := 0, direction := .positive, rate := 0,
    referenceStart := none, lastFollowing := 0, slewTimer := none, settleTimer := none }

/-- After reset with the ILK input as it stands (R106, R119). -/
def Lec.resetWith (ilkHigh : Bool) : Lec :=
  { state := .lockedOut, ilkHigh := ilkHigh, satisfied := false, token := none, expiry := none, duration := 0,
    nextToken := 1, lastEnd := .none }

def Phu.reset : Phu :=
  { stations := Vector.replicate 32 Station.empty, state := .idle, runList := [], position := 0, exposure := 0,
    slotInUse := none, positioningEnd := none, phaseEnd := none, done := 0, missed := 0, readOut := 0, result := .none,
    endCause := .none, nextSerial := 0, serials := [], slots := Vector.replicate 2 FrameSlot.free, source := [] }

def Lnk.reset : Lnk :=
  { rx := .hunt, sawC3 := false, assembly := [], holding := none, replies := [], crcErrors := 0, overruns := 0 }

/-- The edge settings of R174: BOTH for MIRROR_FINE, INTERLOCK_OK, EMIT_LEASED and TIMEBASE_EXTERNAL. -/
def Evr.reset : Evr :=
  { subscriptions := #v[.none, .both, .both, .both, .none, .both, .none, .none], queue := [], lost := 0 }

/-- The levels of R171. -/
def Oba.reset : Oba := { eventLevel := 2, lineLevel := 1, tileLevel := 0, lane := none }

/-- The store as the part leaves manufacture (R125): every page erased, so that every check fails; and the working pages as
the load from it leaves them: defaults, unsaved (R126, log 8, log 9). -/
def Cal.manufactured : Cal :=
  { working := Pages.defaults, unsaved := 31#5, stored := Pages.defaults, checkAgrees := 0#5, invalid := 0#5,
    state := .loading, commitMask := 0#5, page := none, pageWriteEnd := none, outcomes := [], lastCommit := none,
    defaulted := 31#5 }

/-- The part right after a power-on reset (R181): every block at its after-reset value, the tick counter 0, loading begun
on a store as it leaves manufacture (log 8, log 9), inputs at the levels of log 6 and log 7. -/
def State.reset : State :=
  { pending := [], phase := .loading, resetCause := .powerOn,
    tbu := { tick := 0, source := .fallback, referencePresent := false },
    pins := { mirrorCount := 0, headCount := 0, mirrorFault := false, headFault := false },
    scu := Scu.reset, las := Las.reset, rtu := Rtu.reset, pfm := none, mdu := Mdu.reset, hdu := Hdu.reset,
    lec := Lec.resetWith false, cal := Cal.manufactured, phu := Phu.reset, lnk := Lnk.reset, evr := Evr.reset,
    oba := Oba.reset, freeDraw := 0 }

end Sys2Proof.Machine
end

