-- ==== Sys2Proof/Machine/Ops.lean ====
section
/-! DEFINITION. The named updates of the state, one a block, through which every meaning writes; and the small operations
that several blocks share: page masks, timers, slots, what a block is told at the end of an event, a command's result. -/

namespace Sys2Proof.Machine

/-! ### Updates -/

def State.setPending (s : State) (x : List Instr) : State := { s with pending := x }
def State.setPhase (s : State) (x : Phase) : State := { s with phase := x }
def State.setResetCause (s : State) (x : ResetCause) : State := { s with resetCause := x }
def State.setTbu (s : State) (x : Tbu) : State := { s with tbu := x }
def State.setPins (s : State) (x : Pins) : State := { s with pins := x }
def State.setScu (s : State) (x : Scu) : State := { s with scu := x }
def State.setLas (s : State) (x : Las) : State := { s with las := x }
def State.setRtu (s : State) (x : Rtu) : State := { s with rtu := x }
def State.setPfm (s : State) (x : Option PointWork) : State := { s with pfm := x }
def State.setMdu (s : State) (x : Mdu) : State := { s with mdu := x }
def State.setHdu (s : State) (x : Hdu) : State := { s with hdu := x }
def State.setLec (s : State) (x : Lec) : State := { s with lec := x }
def State.setCal (s : State) (x : Cal) : State := { s with cal := x }
def State.setPhu (s : State) (x : Phu) : State := { s with phu := x }
def State.setLnk (s : State) (x : Lnk) : State := { s with lnk := x }
def State.setEvr (s : State) (x : Evr) : State := { s with evr := x }
def State.setOba (s : State) (x : Oba) : State := { s with oba := x }
def State.setFreeDraw (s : State) (x : Nat) : State := { s with freeDraw := x }

/-! ### Time and phases -/

/-- The tick of the event now taken (R177). -/
def State.now (s : State) : Tick := s.tbu.tick

/-- The expiry `n` ticks from now (R177). -/
def State.expiryIn (s : State) (n : Nat) : Tick := ticksAfter s.now n

/-- A timer runs out at this tick: it is running and the tick counter has reached its expiry (log 3). -/
def State.due (s : State) (timer : Option Tick) : Bool := timer == some s.now

/-- The blocks work: there is supply and the reset input is not asserted (R181, log 26). -/
def Phase.up : Phase → Bool
  | .off => false
  | .held => false
  | .loading => true
  | .running => true
  | .resetWait => true

/-- Do `f` while the blocks work; a part without supply or held in reset does nothing (R181, log 26). -/
def State.whenUp (s : State) (f : State → State) : State := if s.phase.up then f s else s

/-! ### Page masks (R125) -/

/-- The mask that selects page `p` alone. -/
def pageBit (p : Fin 5) : PageMask := 1#5 <<< p.val

def PageMask.has (m : PageMask) (p : Fin 5) : Bool := m.getLsbD p.val
def PageMask.add (m : PageMask) (p : Fin 5) : PageMask := m ||| pageBit p
def PageMask.remove (m : PageMask) (p : Fin 5) : PageMask := m &&& ~~~ pageBit p

/-- The five pages in ascending order. -/
def allPages : List (Fin 5) := [0, 1, 2, 3, 4]

/-- The selected pages in ascending order. -/
def PageMask.pages (m : PageMask) : List (Fin 5) := allPages.filter m.has

/-! ### Slots -/

/-- The eight slot numbers in ascending order. -/
def allSlots : List (Fin 8) := [0, 1, 2, 3, 4, 5, 6, 7]

def Las.setSlot (l : Las) (i : Fin 8) (x : LineSlot) : Las := { l with slots := l.slots.set i.val x i.isLt }

/-- The slots that are not FREE (R44). -/
def Las.notFree (l : Las) : Nat := (allSlots.filter fun i => l.slots[i].state != .free).length

/-- The FILLING slot, if there is one (R26). -/
def Las.filling (l : Las) : Option (Fin 8) := allSlots.find? fun i => l.slots[i].state == .filling

/-- Slot `i` becomes `x`. -/
def State.setSlot (s : State) (i : Fin 8) (x : LineSlot) : State := s.setLas (s.las.setSlot i x)

def Phu.setFrame (p : Phu) (i : Fin 2) (x : FrameSlot) : Phu := { p with slots := p.slots.set i.val x i.isLt }

/-- The lowest FREE frame slot (R147). -/
def Phu.freeFrame (p : Phu) : Option (Fin 2) :=
  if p.slots[(0 : Fin 2)].state = .free then some 0
  else if p.slots[(1 : Fin 2)].state = .free then some 1
  else none

/-- Frame slot `i` becomes `x`. -/
def State.setFrame (s : State) (i : Fin 2) (x : FrameSlot) : State := s.setPhu (s.phu.setFrame i x)

/-! ### The end of an event -/

/-- What an event has to tell a block once the event itself is complete (R98, R116, R144, log 22): the end of a lease, to the
Scan Control Unit; a head fault or a mirror stall, to the owner at that moment. -/
inductive Told where
  | leaseEnd (cause : SweepCause)
  | headFault (owner : Owner)
  | mirrorStall (owner : Owner)
  deriving DecidableEq, Repr

/-! ### Commands -/

/-- The statuses of a reply head (R166). -/
inductive Status where
  | ok | state | range | busy | interlock | token | unknownKind | badLength
  deriving DecidableEq, Repr

def Status.code : Status → Byte
  | .ok => 0 | .state => 1 | .range => 2 | .busy => 3 | .interlock => 4 | .token => 5 | .unknownKind => 6
  | .badLength => 7

/-- What a command leaves: the state after its effects, its reply's status and body (none for RESET, R164), and what blocks
are told when the command is complete. -/
structure CmdResult where
  state : State
  reply : Option (Status × List Byte)
  told  : List Told

/-- The command is taken (R166). -/
def okWith (s : State) (body : List Byte) (told : List Told := []) : CmdResult :=
  { state := s, reply := some (.ok, body), told := told }

/-- The command is refused and changes nothing (00_scope.md, "Field tables"). -/
def refuse (s : State) (status : Status) (body : List Byte := []) : CmdResult :=
  { state := s, reply := some (status, body), told := [] }

end Sys2Proof.Machine
end

