-- ==== Sys2Proof/Machine/Flags.lean ====
section
/-! DEFINITION. The flags of the part: the eight conditions as functions of the state (R44, R86, R103, R117, R154, R180),
and the test of a change against the subscription table (R174). -/

namespace Sys2Proof.Machine

/-- The number of a condition (R170, EVENT layout). -/
def Condition.index : Condition → Fin 8
  | .mirrorCoarse => 0 | .mirrorFine => 1 | .interlockOk => 2 | .emitLeased => 3
  | .headIdle => 4 | .timebaseExternal => 5 | .ringHigh => 6 | .framesFull => 7

/-- The conditions in the order of their numbers. -/
def allConditions : List Condition :=
  [.mirrorCoarse, .mirrorFine, .interlockOk, .emitLeased, .headIdle, .timebaseExternal, .ringHigh, .framesFull]

/-- MIRROR_COARSE holds in COARSE and FINE (R86). -/
def MirrorState.coarseLock : MirrorState → Bool
  | .coarse => true
  | .fine => true
  | _ => false

/-- The current level of a condition. -/
def Condition.level (c : Condition) (s : State) : Bool :=
  match c with
  | .mirrorCoarse => s.mdu.state.coarseLock
  | .mirrorFine => s.mdu.state == .fine
  | .interlockOk => s.lec.satisfied
  | .emitLeased => s.lec.state == .leased
  | .headIdle => s.hdu.state == .idle
  | .timebaseExternal => s.tbu.source == .external
  | .ringHigh => decide (6 ≤ s.las.notFree)
  | .framesFull => s.phu.freeFrame.isNone

/-- An edge setting selects a change to this level (R174). -/
def Edge.selects (e : Edge) (level : Bool) : Bool :=
  match e with
  | .none => false
  | .rise => level
  | .fall => !level
  | .both => true

/-- The setting of a condition (R174). -/
def Evr.setting (e : Evr) (c : Condition) : Edge := e.subscriptions[c.index]

end Sys2Proof.Machine
end

