-- ==== Sys2Proof/Machine/Encode.lean ====
section
/-! DEFINITION. Bytes of the link: the field encodings of R167, the frame and its check (R161), and the payloads of the
reports (R18, R42, R149, R155, R170, R183). -/

namespace Sys2Proof.Machine

/-! ### Fields (R167) -/

/-- `n` little-endian bytes of a number. -/
def le : Nat → Nat → List Byte
  | 0, _ => []
  | n + 1, v => BitVec.ofNat 8 v :: le n (v / 256)

/-- `n` little-endian bytes of a signed number, two's complement. -/
def leInt (n : Nat) (v : Int) : List Byte := le n (v % (256 ^ n : Nat)).toNat

/-- The all-ones value of a width: a value that is absent. -/
def absent (n : Nat) : List Byte := List.replicate n 0xFF#8

/-- A field that may be none. -/
def leOpt (n : Nat) : Option Nat → List Byte
  | some v => le n v
  | none => absent n

/-- YES, set, true and HIGH are 1. -/
def flag (b : Bool) : List Byte := [if b then 1 else 0]

/-- One byte: a small number, or the number of an enumerated value in the order its rule lists. -/
def byte (n : Nat) : List Byte := le 1 n

def tickBytes (t : Tick) : List Byte := le 6 t.toNat

/-! ### Frames (R161) -/

/-- One bit of the check: generator 1021h, most significant bit first. -/
def crcShift (crc : BitVec 16) : BitVec 16 :=
  if crc.msb then (crc <<< 1) ^^^ 0x1021#16 else crc <<< 1

/-- `n` bits of the check. -/
def crcShifts : Nat → BitVec 16 → BitVec 16
  | 0, crc => crc
  | n + 1, crc => crcShifts n (crcShift crc)

/-- One byte of the check. -/
def crcByte (crc : BitVec 16) (b : Byte) : BitVec 16 := crcShifts 8 (crc ^^^ (b.setWidth 16 <<< 8))

/-- The check of R161: initial value FFFFh, neither reflected nor inverted. -/
def crc16 (bytes : List Byte) : BitVec 16 := bytes.foldl crcByte 0xFFFF#16

/-- The bytes from offset 2 to the last payload byte: kind, tag, length and payload. -/
def Frame.checked (f : Frame) : List Byte := f.kind :: f.tag :: (le 2 f.payload.length ++ f.payload)

/-- All bytes of a frame (R161). -/
def Frame.bytes (f : Frame) : List Byte :=
  0xC3#8 :: 0x5A#8 :: (f.checked ++ le 2 (crc16 f.checked).toNat)

/-- A report frame: tag 0 (R161). -/
def report (kind : Byte) (payload : List Byte) : Frame := { kind := kind, tag := 0, payload := payload }

/-! ### Lines (R41, R42, R170) -/

def Echo.bytes (e : Echo) : List Byte :=
  le 3 e.range.toNat ++ le 2 (e.amplitude.toNat + if e.saturated then 32768 else 0)

def Point.bytes (p : Point) : List Byte :=
  le 2 p.pulse ++ le 3 p.vangle.toNat ++ le 3 p.azimuth.toNat ++ byte p.echoes.length ++ p.echoes.flatMap Echo.bytes

/-- The bytes a point occupies: 9 + 5 × n (R33). -/
def Point.size (p : Point) : Nat := 9 + 5 * p.echoes.length

/-- Put a point at the head of the first chunk. -/
def consChunk (p : Point) : List (List Point) → List (List Point)
  | [] => [[p]]
  | c :: cs => (p :: c) :: cs

/-- Pack whole points, in list order, into chunks of 4,064 bytes, `used` bytes of the first chunk being taken (R41). -/
def packFrom (used : Nat) : List Point → List (List Point)
  | [] => [[]]
  | p :: ps =>
    if used + p.size ≤ 4064 then consChunk p (packFrom (used + p.size) ps)
    else [] :: consChunk p (packFrom p.size ps)

/-- The chunks of a line; an empty point list is one chunk that holds no point (R41). -/
def LineSlot.chunks (sl : LineSlot) : List (List Point) := packFrom 0 sl.points

/-- The flags byte of LINE_DATA (R170). -/
def LineSlot.flagByte (sl : LineSlot) : Nat :=
  (if sl.truncated then 1 else 0) + (if sl.speedDeviation then 2 else 0) + (if sl.returnLoss then 4 else 0)
    + (if sl.timebaseFallback then 8 else 0)

/-- The payload of chunk `c` of a line: the 32-byte chunk header and the chunk's points (R42, R170). -/
def LineSlot.chunkPayload (sl : LineSlot) (c : Nat) : List Byte :=
  let points := sl.chunks.getD c []
  le 2 sl.sweepId.toNat ++ le 4 sl.lineIndex ++ byte c ++ byte sl.chunks.length ++ le 2 points.length
    ++ byte sl.flagByte ++ byte sl.echoMode.ctorIdx ++ le 4 sl.azimuth.toNat ++ tickBytes sl.openTick
    ++ le 2 sl.scheduled ++ le 2 sl.fired ++ le 2 sl.skipped ++ le 2 sl.lost ++ le 2 sl.omittedEmpty
    ++ points.flatMap Point.bytes

/-- SWEEP_END, field by field as R18 lists them (R167). -/
def SweepEnd.payload (r : SweepEnd) : List Byte :=
  le 2 r.sweepId.toNat ++ byte r.kind.ctorIdx ++ byte r.result.ctorIdx ++ byte r.endCause.ctorIdx ++ le 3 r.lines
    ++ le 3 r.decided ++ le 3 r.notRun ++ le 3 r.clean ++ le 3 r.flagged ++ le 3 r.lostNoLock ++ le 3 r.lostNoSlot
    ++ byte r.gapEntries ++ flag r.overflow ++ tickBytes r.startTick ++ tickBytes r.endTick

/-! ### Frames of the frame store (R153, R170) -/

/-- The value of a pixel; one that is not listed reads 0 (log 21). -/
def readPixel : PixelList → Nat → BitVec 12
  | [], _ => 0
  | (m, v) :: rest, n => if m = n then v else readPixel rest n

/-- Put one pixel into a canonical list, in place of what stood there; the value 0 is not listed (log 21). -/
def writePixel (n : Nat) (v : BitVec 12) : PixelList → PixelList
  | [] => if v = 0 then [] else [(n, v)]
  | (m, w) :: rest =>
    if n < m then (if v = 0 then (m, w) :: rest else (n, v) :: (m, w) :: rest)
    else if n = m then (if v = 0 then rest else (n, v) :: rest)
    else (m, w) :: writePixel n v rest

/-- The canonical list of an image the sensor gives: pixels inside the frame, the first mention of a pixel counts. -/
def canonicalImage (l : PixelList) : PixelList :=
  l.foldr (fun p acc => if p.1 < 3145728 then writePixel p.1 p.2 acc else acc) []

/-- The number of pixel `q` of tile `t` in the frame: tiles of 64 × 32 in raster order, 32 across (R153). -/
def tilePixel (t q : Nat) : Nat := 2048 * (32 * (t / 32) + q / 64) + (64 * (t % 32) + q % 64)

/-- The three bytes of pixels 2m and 2m + 1 of a tile (R170). -/
def pixelPair (image : PixelList) (t m : Nat) : List Byte :=
  le 3 ((readPixel image (tilePixel t (2 * m))).toNat + 4096 * (readPixel image (tilePixel t (2 * m + 1))).toNat)

/-- PHOTO_BEGIN, 22 bytes (R150, R170). -/
def FrameSlot.beginPayload (f : FrameSlot) : List Byte :=
  le 2 f.serial.toNat ++ byte f.station.val ++ byte f.exposure ++ leOpt 3 (f.headAzimuth.map BitVec.toNat)
    ++ leOpt 2 (f.mirrorCount.map BitVec.toNat) ++ le 3 f.time ++ byte f.gain ++ flag f.fallback
    ++ tickBytes f.startTick ++ le 2 1536

/-- TILE_DATA of tile `t`, 3,080 bytes (R153, R170). -/
def FrameSlot.tilePayload (f : FrameSlot) (t : Nat) : List Byte :=
  le 2 f.serial.toNat ++ le 2 t ++ byte (t / 32) ++ byte (t % 32) ++ le 2 1536
    ++ (List.range 1024).flatMap (pixelPair f.image t)

/-- STATION_DONE (R149); outcomes numbered DONE 0, MISSED 1 (log 19). -/
def StationDone.payload (r : StationDone) : List Byte :=
  byte r.station.val ++ flag r.missed ++ byte r.serials.length ++ r.serials.flatMap (fun n => le 2 n.toNat)
    ++ tickBytes r.tick

/-- PHOTO_RUN_END (R155); the result numbered as the run record's field (log 19). -/
def RunEnd.payload (r : RunEnd) : List Byte :=
  byte r.result.ctorIdx ++ byte r.endCause.ctorIdx ++ byte r.stations ++ byte r.done ++ byte r.missed
    ++ byte (r.stations - r.done - r.missed) ++ byte r.exposures ++ flag r.discarded ++ tickBytes r.tick

/-! ### Events (R170) -/

/-- The failure mask of a commit's outcomes (R170). -/
def failureMask (outcomes : List PageOutcome) : PageMask :=
  outcomes.foldl (fun m o => if o.2 then m else m.add o.1) 0

def EventBody.subkind : EventBody → Nat
  | .condition .. => 0 | .mirrorStall .. => 1 | .headFault .. => 2 | .storeDone .. => 3

def EventBody.bytes : EventBody → List Byte
  | .condition c level => byte c.index.val ++ flag level
  | .mirrorStall reason st owner speed period =>
    byte reason.ctorIdx ++ byte st.ctorIdx ++ byte owner.ctorIdx ++ byte speed.val ++ le 4 period
  | .headFault reason st owner target head following =>
    byte reason.ctorIdx ++ byte st.ctorIdx ++ byte owner.ctorIdx ++ le 3 target.toNat ++ le 3 head.toNat
      ++ leInt 3 following
  | .storeDone mask outcomes => byte mask.toNat ++ byte (failureMask outcomes).toNat

/-- EVENT: the 8-byte common part, with the lost-event count of the moment, and the body (R170, R175). -/
def Event.payload (e : Event) (lost : Nat) : List Byte :=
  byte e.body.subkind ++ byte lost ++ tickBytes e.tick ++ e.body.bytes

/-- READY (R183). -/
def readyPayload (cause : ResetCause) (defaulted : PageMask) (source : TimeSource) (tick : Tick) : List Byte :=
  le 2 640 ++ byte 1 ++ byte cause.ctorIdx ++ byte defaulted.toNat ++ byte source.ctorIdx ++ tickBytes tick

end Sys2Proof.Machine
end

