-- ==== Sys2Proof/Machine/Outbound.lean ====
section
/-! DEFINITION. The Outbound Arbiter and the Event Reporter: the choice of a frame (R172), the appends to the four sources
(R39, R152, R165, R175), the hand-over of a condition's change (R174), PRIORITY_SET (R173) and SUBSCRIBE (R174). -/

namespace Sys2Proof.Machine

/-- The sources in the order of their numbers (R171). -/
def allSources : List Source := [.reply, .event, .line, .tile]

/-- The level of a source (R171). -/
def Oba.level (o : Oba) : Source → Nat
  | .reply => 3
  | .event => o.eventLevel.val
  | .line => o.lineLevel.val
  | .tile => o.tileLevel.val

/-- The number of items in a source (R171, R176). -/
def State.items (s : State) : Source → Nat
  | .reply => s.lnk.replies.length
  | .event => s.evr.queue.length
  | .line => s.las.source.length
  | .tile => s.phu.source.length

/-- The non-empty source with the highest level; among equal levels the lowest number (R172). -/
def State.chosen (s : State) : Option Source :=
  (allSources.filter fun x => 0 < s.items x).foldl
    (fun best x => match best with
      | none => some x
      | some b => if s.oba.level b < s.oba.level x then some x else some b) none

/-- Put a frame on the lane: a frame of n + 8 bytes holds it for 2 × (n + 8) ticks (R172). -/
def State.send (s : State) (item : LaneItem) (f : Frame) : State :=
  s.setOba { s.oba with
    lane := some { item := item, frame := f, endTick := s.expiryIn (2 * (f.payload.length + 8)) } }

/-- Begin the frame of the head reply, which leaves the queue (R165). -/
def beginReply (s : State) : State :=
  match s.lnk.replies with
  | [] => s
  | f :: rest => (s.setLnk { s.lnk with replies := rest }).send .reply f

/-- Begin the EVENT frame of the head event: it leaves the queue, its frame carries lost_events, which becomes 0 (R175). -/
def beginEvent (s : State) : State :=
  match s.evr.queue with
  | [] => s
  | e :: rest =>
    (s.setEvr { s.evr with queue := rest, lost := 0 }).send .event (report 0xC1 (e.payload s.evr.lost))

/-- Begin the next frame of the head item of the LINE source: a chunk, which makes its slot DRAINING (R40), or a SWEEP_END,
which leaves the queue (R39). -/
def beginLine (s : State) : State :=
  match s.las.source with
  | [] => s
  | .slot i :: _ =>
    (s.setSlot i { s.las.slots[i] with state := .draining }).send (.lineChunk i)
      (report 0xC2 (s.las.slots[i].chunkPayload s.las.slots[i].chunksSent))
  | .sweepEnd r :: rest => (s.setLas { s.las with source := rest }).send .sweepEnd (report 0xC3 r.payload)

/-- Begin the next frame of the head item of the TILE source: PHOTO_BEGIN, which makes its slot DRAINING, or the next tile
(R153), or a report, which leaves the queue (R152). -/
def beginTile (s : State) : State :=
  match s.phu.source with
  | [] => s
  | .frame i :: _ =>
    (s.setFrame i { s.phu.slots[i] with state := .draining }).send (.framePart i)
      (match s.phu.slots[i].framesSent with
        | 0 => report 0xC4 s.phu.slots[i].beginPayload
        | t + 1 => report 0xC5 (s.phu.slots[i].tilePayload t))
  | .stationDone r :: rest => (s.setPhu { s.phu with source := rest }).send .tileReport (report 0xC6 r.payload)
  | .runEnd r :: rest => (s.setPhu { s.phu with source := rest }).send .tileReport (report 0xC7 r.payload)

/-- Begin a frame of a source's head item (R172). -/
def beginFrame (s : State) : Source → State
  | .reply => beginReply s
  | .event => beginEvent s
  | .line => beginLine s
  | .tile => beginTile s

/-- A frame boundary: with the lane idle the chosen source's frame begins (R172). In the reset wait and outside running no
further frame begins (R181, R182). -/
def boundary (s : State) : State :=
  if s.phase = .running ∧ s.oba.lane = none then
    match s.chosen with
    | none => s
    | some x => beginFrame s x
  else s

/-! ### Appends: each is a boundary when the lane is idle (R172, log 16) -/

/-- A reply goes to the tail of the reply queue (R164). -/
def appendReply (f : Frame) (s : State) : State :=
  boundary (s.setLnk { s.lnk with replies := s.lnk.replies ++ [f] })

/-- An event goes to the tail of the event queue, or is dropped at a full one and counted (R175). -/
def appendEvent (body : EventBody) (s : State) : State :=
  if s.evr.queue.length < 16 then
    boundary (s.setEvr { s.evr with queue := s.evr.queue ++ [{ body := body, tick := s.now }] })
  else s.setEvr { s.evr with lost := satInc 255 s.evr.lost }

/-- An item goes to the tail of the LINE source (R39). -/
def appendLine (x : LineItem) (s : State) : State :=
  boundary (s.setLas { s.las with source := s.las.source ++ [x] })

/-- An item goes to the tail of the TILE source (R152). -/
def appendTile (x : TileItem) (s : State) : State :=
  boundary (s.setPhu { s.phu with source := s.phu.source ++ [x] })

/-- The Event Reporter is handed a change of a condition to a new level: a selected change is appended as a CONDITION event,
an unselected one is not recorded (R174). -/
def reportEdge (c : Condition) (level : Bool) (s : State) : State :=
  if (s.evr.setting c).selects level then appendEvent (.condition c level) s else s

/-- Hand over the change of a condition from one level to another, if it is a change (R174). -/
def reportChange (c : Condition) (before after : Bool) (s : State) : State :=
  if before = after then s else reportEdge c after s

/-! ### The commands -/

/-- The edge setting of a number (R167). -/
def edgeOf : Nat → Option Edge
  | 0 => some .none | 1 => some .rise | 2 => some .fall | 3 => some .both | _ => none

/-- SUBSCRIBE sets the edge setting of one condition; the reply carries the condition, its setting before and its current
level (R174). -/
def cmdSubscribe (condition edge : Byte) (s : State) : CmdResult :=
  match allConditions[condition.toNat]?, edgeOf edge.toNat with
  | some c, some e =>
    okWith (s.setEvr { s.evr with subscriptions := s.evr.subscriptions.set c.index.val e c.index.isLt })
      (byte c.index.val ++ byte (s.evr.setting c).ctorIdx ++ flag (c.level s))
  | _, _ => refuse s .range

/-- PRIORITY_SET sets the level of EVENT, LINE or TILE; the reply carries the source and its level before (R173). -/
def cmdPrioritySet (source level : Byte) (s : State) : CmdResult :=
  if h : level.toNat < 3 then
    let l : Fin 3 := ⟨level.toNat, h⟩
    match source.toNat with
    | 1 => okWith (s.setOba { s.oba with eventLevel := l }) (byte 1 ++ byte s.oba.eventLevel.val)
    | 2 => okWith (s.setOba { s.oba with lineLevel := l }) (byte 2 ++ byte s.oba.lineLevel.val)
    | 3 => okWith (s.setOba { s.oba with tileLevel := l }) (byte 3 ++ byte s.oba.tileLevel.val)
    | _ => refuse s .range
  else refuse s .range

end Sys2Proof.Machine
end

