-- ==== Sys2Proof/Machine/Laser.lean ====
section
/-! DEFINITION. The Laser Emission Controller: interlock (R107 to R109), tokens (R110), the three emission commands (R111
to R113), expiry (R114) and the fire gate (R115). -/

namespace Sys2Proof.Machine

/-- The interlock's two inputs: ILK HIGH, and the mirror in COARSE or FINE (R107). -/
def State.interlockHolds (s : State) : Bool := s.lec.ilkHigh && s.mdu.state.coarseLock

/-- The fire gate is open while the state is LEASED (R115). -/
def State.gateOpen (s : State) : Bool := s.lec.state == .leased

/-- The record with no lease in force, in state `st` (R106): token and expiry none. -/
def Lec.without (l : Lec) (st : LecState) (how : LeaseEnd) : Lec :=
  { l with state := st, token := none, expiry := none, lastEnd := how }

/-- The interlock becomes satisfied: LOCKED_OUT to OFF, and INTERLOCK_OK rises (R109). -/
def interlockSatisfied (s : State) : State :=
  reportEdge .interlockOk true (s.setLec { s.lec with state := .off, satisfied := true })

/-- The interlock becomes unsatisfied: LOCKED_OUT; INTERLOCK_OK falls; a lease is voided with last end INTERLOCK, EMIT_LEASED
falls, and the Scan Control Unit is told (R108, R116). -/
def interlockUnsatisfied (s : State) : State × List Told :=
  match s.lec.state with
  | .leased =>
    (reportEdge .emitLeased false
      (reportEdge .interlockOk false (s.setLec { s.lec.without .lockedOut .interlock with satisfied := false })),
      [.leaseEnd .interlock])
  | _ => (reportEdge .interlockOk false (s.setLec { s.lec with state := .lockedOut, satisfied := false }), [])

/-- The interlock is evaluated afresh; the same value as before has no effect (R107). -/
def evalInterlock (s : State) : State × List Told :=
  if s.interlockHolds = s.lec.satisfied then (s, [])
  else if s.interlockHolds then (interlockSatisfied s, [])
  else interlockUnsatisfied s

/-- The token after `t`: from 65,535 to 1 (R110). -/
def tokenAfter (t : Serial) : Serial := if t = 65535#16 then 1 else t + 1

/-- A lease of `seconds` from now under a newly issued token (R110, R111, R112). -/
def State.leaseFor (s : State) (seconds : Nat) : State :=
  s.setLec { s.lec with
    state := .leased, token := some s.lec.nextToken, expiry := some (s.expiryIn (seconds * 40000000)),
    duration := seconds, nextToken := tokenAfter s.lec.nextToken }

/-- The body of an OK reply to a request or a renewal: token, expiry and duration (R111, R112). -/
def State.leaseBody (s : State) : List Byte :=
  leOpt 2 (s.lec.token.map BitVec.toNat) ++ leOpt 6 (s.lec.expiry.map BitVec.toNat) ++ byte s.lec.duration

/-- EMIT_REQUEST (R111): RANGE first; in LEASED refused with STATE, in LOCKED_OUT with INTERLOCK; a refusal carries the
state. -/
def cmdEmitRequest (duration : Byte) (s : State) : CmdResult :=
  if duration.toNat < 1 ∨ 60 < duration.toNat then refuse s .range (byte s.lec.state.ctorIdx)
  else match s.lec.state with
  | .leased => refuse s .state (byte s.lec.state.ctorIdx)
  | .lockedOut => refuse s .interlock (byte s.lec.state.ctorIdx)
  | .off =>
    okWith (reportEdge .emitLeased true (s.leaseFor duration.toNat)) (s.leaseFor duration.toNat).leaseBody

/-- EMIT_RENEW (R112): the checks RANGE, STATE, TOKEN; a new token and a new expiry. -/
def cmdEmitRenew (token : Half) (duration : Byte) (s : State) : CmdResult :=
  if duration.toNat < 1 ∨ 60 < duration.toNat then refuse s .range
  else match s.lec.state with
  | .leased =>
    if s.lec.token = some token then okWith (s.leaseFor duration.toNat) (s.leaseFor duration.toNat).leaseBody
    else refuse s .token
  | .off => refuse s .state
  | .lockedOut => refuse s .state

/-- The lease ends in OFF: token and expiry none, the gate closes, EMIT_LEASED falls, and the Scan Control Unit is told
LEASE_ENDED (R113, R114, R116). -/
def leaseEnds (how : LeaseEnd) (s : State) : State × List Told :=
  (reportEdge .emitLeased false (s.setLec (s.lec.without .off how)), [.leaseEnd .leaseEnded])

/-- EMIT_OFF (R113): the reply carries the state before and after. -/
def cmdEmitOff (s : State) : CmdResult :=
  match s.lec.state with
  | .leased =>
    okWith (leaseEnds .emitOff s).1 (byte LecState.leased.ctorIdx ++ byte LecState.off.ctorIdx)
      (leaseEnds .emitOff s).2
  | .off => okWith s (byte LecState.off.ctorIdx ++ byte LecState.off.ctorIdx)
  | .lockedOut => okWith s (byte LecState.lockedOut.ctorIdx ++ byte LecState.lockedOut.ctorIdx)

/-- The tick counter reaches the lease expiry in LEASED (R114). -/
def leaseExpiry (s : State) : State × List Told :=
  if s.lec.state = .leased ∧ s.due s.lec.expiry then leaseEnds .expired s else (s, [])

/-- The ILK input takes a level, and the interlock is evaluated afresh (R107). -/
def ilkChange (high : Bool) (s : State) : State × List Told :=
  evalInterlock (s.setLec { s.lec with ilkHigh := high })

end Sys2Proof.Machine
end

