-- ==== Sys2Proof/Machine/Mirror.lean ====
section
/-! DEFINITION. The Mirror Drive Unit: the lock detector (R73, R74), timebase switches (R78), parking (R79, R80), stalls
(R81), the host's commands (R82 to R84), the park request (R83) and the driver fault input (R85). -/

namespace Sys2Proof.Machine

/-- The motor drive output (R70): removed; a speed, the set speed's index; or a position, the park target. -/
inductive MirrorDrive where
  | removed
  | speed (index : Fin 4)
  | position (target : MirrorCount)
  deriving DecidableEq, Repr

/-- The drive of a mirror state (R70); a part without supply or held in reset removes it (R181). -/
def State.mirrorDrive (s : State) : MirrorDrive :=
  if s.phase.up then
    match s.mdu.state with
    | .stopped | .stalled => .removed
    | .spinup | .coarse | .fine => .speed s.mdu.setSpeed
    | .parking | .parked => .position s.mdu.parkTarget
  else .removed

/-- The target period of a set speed, in ticks (R71). -/
def targetPeriod : Fin 4 → Nat
  | 0 => 3200000
  | 1 => 1600000
  | 2 => 800000
  | 3 => 400000

/-- |measured − T| (R73). -/
def periodError (measured target : Nat) : Nat := (measured - target) + (target - measured)

/-- A coarse match: within 1 part in 100 (R73). -/
def coarseMatch (measured target : Nat) : Bool := decide (periodError measured target * 100 ≤ target)

/-- A fine match: within 1 part in 2,000 (R73). -/
def fineMatch (measured target : Nat) : Bool := decide (periodError measured target * 2000 ≤ target)

/-- The run counters and the state after a comparison, as the table of R74 gives them. `fine` is a fine match that counts
(R78). -/
def afterComparison (st : MirrorState) (coarseRun fineRun : Nat) (coarse fine : Bool) : MirrorState × Nat × Nat :=
  if coarse then
    let f := if fine then satInc 64 fineRun else 0
    match st with
    | .spinup =>
      let c := satInc 16 coarseRun
      (if 16 ≤ c then .coarse else .spinup, c, f)
    | .coarse => (if 64 ≤ f then .fine else .coarse, coarseRun, f)
    | .fine => (if fine then .fine else .coarse, coarseRun, f)
    | other => (other, coarseRun, fineRun)
  else (.spinup, 0, 0)

/-- The states in which the lock detector acts (R73). -/
def MirrorState.spinning : MirrorState → Bool
  | .spinup | .coarse | .fine => true
  | .stopped | .parking | .parked | .stalled => false

/-- The timers after an index pulse (R74, R76, R77): in COARSE and FINE the watchdog runs for two target periods from this
pulse and the spin-up timer is stopped; a fall into SPINUP stops the watchdog and starts the spin-up timer at 8 s. -/
def Mdu.pulseTimers (m : Mdu) (old : MirrorState) (now : Tick) : Mdu :=
  if m.state.coarseLock then
    { m with spinupTimer := none, watchdog := some (ticksAfter now (2 * targetPeriod m.setSpeed)) }
  else if old.coarseLock then { m with watchdog := none, spinupTimer := some (ticksAfter now 320000000) }
  else m

/-- The mirror record after an index pulse in SPINUP, COARSE or FINE (R73, R74). -/
def Mdu.indexPulse (m : Mdu) (now : Tick) : Mdu :=
  match m.measurementStart with
  | none => { m with measurementStart := some now, switchMark := false }.pulseTimers m.state now
  | some start =>
    let measured := ticksFrom start now
    let target := targetPeriod m.setSpeed
    let r := afterComparison m.state m.coarseRun m.fineRun (coarseMatch measured target)
      (fineMatch measured target && !m.switchMark)
    { m with
      state := r.1, coarseRun := r.2.1, fineRun := r.2.2, lastPeriod := min measured 4294967295,
      measurementStart := some now, switchMark := false }.pulseTimers m.state now

/-- The comparison of an index pulse failed the fine tolerance; a pulse without a comparison counts as failed (R75). -/
def Mdu.fineFailed (m : Mdu) (now : Tick) : Bool :=
  if m.state.spinning then
    match m.measurementStart with
    | none => true
    | some start => !fineMatch (ticksFrom start now) (targetPeriod m.setSpeed)
  else true

/-- The mirror record becomes `m`: MIRROR_FINE, then MIRROR_COARSE, are handed over if they change, and a change of
MIRROR_COARSE has the interlock evaluated (R86, R107, R108). At a rise of both, MIRROR_COARSE reaches the Event Reporter before
INTERLOCK_OK: R108 gives that order for falls only, for the rise it is the model's choice (log 34). -/
def moveMirror (m : Mdu) (s : State) : State × List Told :=
  let s1 := reportChange .mirrorFine (s.mdu.state == .fine) (m.state == .fine) (s.setMdu m)
  let s2 := reportChange .mirrorCoarse s.mdu.state.coarseLock m.state.coarseLock s1
  if s.mdu.state.coarseLock = m.state.coarseLock then (s2, []) else evalInterlock s2

/-- The lock detector at an index pulse: it does not act in STOPPED, PARKING, PARKED and STALLED (R73). -/
def lockDetect (s : State) : State × List Told :=
  if s.mdu.state.spinning then moveMirror (s.mdu.indexPulse s.now) s else (s, [])

/-- The record with every timer stopped, both runs 0, no measurement start and the switch mark clear (R81, R84). -/
def Mdu.cleared (m : Mdu) : Mdu :=
  { m with
    coarseRun := 0, fineRun := 0, measurementStart := none, switchMark := false, spinupTimer := none, watchdog := none,
    parkTimer := none, parkSettle := none, parkExcursion := none }

/-- The mirror enters STALLED (R81): the falls of the conditions come before the MIRROR_STALL event; the owner is told. -/
def mirrorStalls (reason : StallReason) (s : State) : State × List Told :=
  let m := s.mdu
  let r := moveMirror { m.cleared with state := .stalled, stallReason := reason } s
  (appendEvent (.mirrorStall reason m.state m.owner m.setSpeed m.lastPeriod) r.1, r.2 ++ [.mirrorStall m.owner])

/-- A command or request has put the mirror in a driven state: out of STOPPED with the driver fault input asserted it stalls
at once (R85). -/
def stallIfFaulted (old : MirrorState) (r : State × List Told) : State × List Told :=
  if old = .stopped ∧ r.1.pins.mirrorFault then
    let r' := mirrorStalls .driver r.1
    (r'.1, r.2 ++ r'.2)
  else r

/-- The record as MIRROR_SPIN starts it (R82): SPINUP, runs 0, no measurement start, mark clear, park timers and watchdog
stopped, spin-up timer at 8 s. -/
def Mdu.spin (m : Mdu) (speed : Fin 4) (spinupEnd : Tick) : Mdu :=
  { m.cleared with state := .spinup, setSpeed := speed, spinupTimer := some spinupEnd }

/-- Set the mirror spinning (R82); the set speed in a speed state is no change. -/
def spinMirror (speed : Fin 4) (s : State) : State × List Told :=
  if s.mdu.state.spinning ∧ speed = s.mdu.setSpeed then (s, [])
  else stallIfFaulted s.mdu.state (moveMirror (s.mdu.spin speed (s.expiryIn 320000000)) s)

/-- The park distance (R79). -/
def parkDistance (target count : MirrorCount) : Nat := min (count - target).toNat (target - count).toNat

/-- The record as a park to `target` starts it (R83), the mirror standing at `count`. -/
def Mdu.park (m : Mdu) (target count : MirrorCount) (parkEnd settleEnd : Tick) : Mdu :=
  let settle := if parkDistance target count ≤ 2 then some settleEnd else none
  match m.state with
  | .stopped | .spinup | .coarse | .fine | .stalled =>
    { m with
      state := .parking, parkTarget := target, coarseRun := 0, fineRun := 0, measurementStart := none,
      switchMark := false, spinupTimer := none, watchdog := none, parkTimer := some parkEnd, parkSettle := settle }
  | .parking => { m with parkTarget := target, parkTimer := some parkEnd, parkSettle := settle }
  | .parked =>
    { m with
      state := .parking, parkTarget := target, parkExcursion := none, parkTimer := some parkEnd, parkSettle := settle }

/-- A park, commanded or requested (R83); a STALLED mirror takes none. -/
def parkTo (target : MirrorCount) (s : State) : State × List Told :=
  if s.mdu.state = .stalled then (s, [])
  else stallIfFaulted s.mdu.state
    (moveMirror (s.mdu.park target s.pins.mirrorCount (s.expiryIn 120000000) (s.expiryIn 800000)) s)

/-- MIRROR_SPIN (R82): the reply carries the state after and the set speed. -/
def cmdMirrorSpin (speed : Byte) (s : State) : CmdResult :=
  if h : speed.toNat < 4 then
    if s.mdu.owner ≠ .none ∨ s.mdu.state = .stalled then refuse s .state
    else
      let r := spinMirror ⟨speed.toNat, h⟩ s
      okWith r.1 (byte r.1.mdu.state.ctorIdx ++ byte r.1.mdu.setSpeed.val) r.2
  else refuse s .range

/-- MIRROR_PARK (R83): the reply carries the state after and the park target. -/
def cmdMirrorPark (count : Half) (s : State) : CmdResult :=
  if mirrorTurn ≤ count.toNat then refuse s .range
  else if s.mdu.owner ≠ .none ∨ s.mdu.state = .stalled then refuse s .state
  else
    let r := parkTo (BitVec.ofNat 14 count.toNat) s
    okWith r.1 (byte r.1.mdu.state.ctorIdx ++ le 2 r.1.mdu.parkTarget.toNat) r.2

/-- MIRROR_STOP (R84): the reply carries the stall reason as it stood before. -/
def cmdMirrorStop (s : State) : CmdResult :=
  if s.mdu.owner ≠ .none then refuse s .state
  else
    let r := moveMirror { s.mdu.cleared with state := .stopped, stallReason := .none } s
    okWith r.1 (byte s.mdu.stallReason.ctorIdx) r.2

/-- The spin-up timer runs out in SPINUP (R76). -/
def spinupTimeout (s : State) : State × List Told :=
  if s.mdu.state = .spinup ∧ s.due s.mdu.spinupTimer then mirrorStalls .spinupTimeout s else (s, [])

/-- The index watchdog runs out in COARSE or FINE (R77). -/
def indexLoss (s : State) : State × List Told :=
  if s.mdu.state.coarseLock ∧ s.due s.mdu.watchdog then mirrorStalls .indexLoss s else (s, [])

/-- The park timer runs out in PARKING (R79). -/
def parkTimeout (s : State) : State × List Told :=
  if s.mdu.state = .parking ∧ s.due s.mdu.parkTimer then mirrorStalls .parkTimeout s else (s, [])

/-- The park excursion timer runs out in PARKED (R80). -/
def parkLost (s : State) : State × List Told :=
  if s.mdu.state = .parked ∧ s.due s.mdu.parkExcursion then mirrorStalls .parkLost s else (s, [])

/-- The park settle timer is due in PARKING (R79). -/
def State.parkSettleDue (s : State) : Bool := s.mdu.state == .parking && s.due s.mdu.parkSettle

/-- The park settle timer runs out: PARKED, and the park timer stops (R79). -/
def mirrorParks (s : State) : State :=
  s.setMdu { s.mdu with state := .parked, parkTimer := none, parkSettle := none }

/-- The mirror encoder reads a count (log 6). -/
def readMirror (count : MirrorCount) (s : State) : State := s.setPins { s.pins with mirrorCount := count }

/-- The mirror encoder comes to a count: the crossing of ±2 counts in PARKING (R79) and of ±16 counts in PARKED (R80). Every
command that brings a mirror count brings it so. -/
def mirrorMoves (count : MirrorCount) (s : State) : State :=
  let s := readMirror count s
  let d := parkDistance s.mdu.parkTarget count
  match s.mdu.state with
  | .parking =>
    if d ≤ 2 then
      if s.mdu.parkSettle.isNone then s.setMdu { s.mdu with parkSettle := some (s.expiryIn 800000) } else s
    else s.setMdu { s.mdu with parkSettle := none }
  | .parked =>
    if d ≤ 16 then s.setMdu { s.mdu with parkExcursion := none }
    else if s.mdu.parkExcursion.isNone then s.setMdu { s.mdu with parkExcursion := some (s.expiryIn 4000000) }
    else s
  | _ => s

/-- The mirror states in which a driver fault is taken (R85). -/
def MirrorState.driven : MirrorState → Bool
  | .spinup | .coarse | .fine | .parking | .parked => true
  | .stopped | .stalled => false

/-- The driver fault input takes a level; becoming asserted in a driven state stalls the mirror (R85). -/
def mirrorDriverFault (asserted : Bool) (s : State) : State × List Told :=
  let s1 := s.setPins { s.pins with mirrorFault := asserted }
  if asserted ∧ ¬ s.pins.mirrorFault ∧ s.mdu.state.driven then mirrorStalls .driver s1 else (s1, [])

/-- A switch of the timebase source in a speed state: FINE falls to COARSE, the fine run is emptied and the switch mark set;
in SPINUP the mark is set if a measurement runs (R78). -/
def Mdu.timebaseSwitch (m : Mdu) : Mdu :=
  match m.state with
  | .fine => { m with state := .coarse, fineRun := 0, switchMark := true }
  | .coarse => { m with fineRun := 0, switchMark := true }
  | .spinup => { m with fineRun := 0, switchMark := m.measurementStart.isSome || m.switchMark }
  | .stopped | .parking | .parked | .stalled => m

/-- The mirror takes a timebase switch (R78). -/
def mirrorSwitch (s : State) : State := (moveMirror s.mdu.timebaseSwitch s).1

end Sys2Proof.Machine
end

