-- ==== Sys2Proof/Machine/Gap.lean ====
section
/-! DEFINITION. The gap list: the adding procedure (R22), the subtraction procedure (R24), the pieces of an interval (R21),
GAPS_GET's entries (R25). -/

namespace Sys2Proof.Machine

/-- The end of an entry: the first offset past it. -/
def Gap.stop (g : Gap) : Nat := g.offset + g.length

/-- Some entry of the list holds an offset (R20). -/
def GapList.covers (g : GapList) (x : Nat) : Bool := g.entries.any fun e => decide (e.offset ≤ x) && decide (x < e.stop)

/-- The entries after an interval beginning at `o` of length `n` is added, and whether that overflowed (R22): the last entry
is extended when it ends at `o`; else a new entry is appended while there is room; else the last entry grows to the end of
the interval. -/
def addGap (o n : Nat) : List Gap → Nat → List Gap × Bool
  | [], held => if held < 16 then ([{ offset := o, length := n }], false) else ([], false)
  | [e], held =>
    if e.stop = o then ([{ e with length := e.length + n }], false)
    else if held < 16 then ([e, { offset := o, length := n }], false)
    else ([{ e with length := o + n - e.offset }], true)
  | e :: e' :: rest, held =>
    let r := addGap o n (e' :: rest) held
    (e :: r.1, r.2)

/-- The adding procedure for sweep `id` (R22, R20). -/
def GapList.add (g : GapList) (id : Serial) (o n : Nat) : GapList :=
  let r := addGap o n g.entries g.entries.length
  { g with entries := r.1, overflow := g.overflow || r.2, lastChanger := id }

/-- What is left of an entry when the interval beginning at `o` of length `n` is subtracted, with room for one more entry or
without (R24). -/
def Gap.subtract (e : Gap) (o n : Nat) (room : Bool) : List Gap :=
  if n = 0 ∨ o + n ≤ e.offset ∨ e.stop ≤ o then [e]
  else if o ≤ e.offset then
    if e.stop ≤ o + n then []
    else [{ offset := o + n, length := e.stop - (o + n) }]
  else if e.stop ≤ o + n then [{ offset := e.offset, length := o - e.offset }]
  else if room then [{ offset := e.offset, length := o - e.offset }, { offset := o + n, length := e.stop - (o + n) }]
  else [e]

/-- The subtraction entry by entry, `held` entries being in the list at that moment: a split needs fewer than 16, a removal
frees room (R24). -/
def subtractFrom (o n : Nat) : Nat → List Gap → List Gap
  | _, [] => []
  | held, e :: es =>
    let left := e.subtract o n (decide (held < 16))
    left ++ subtractFrom o n (held + left.length - 1) es

/-- The subtraction procedure for one piece, by sweep `id`; a subtraction that leaves every entry as it was keeps the
last-changer id (R20, R24). -/
def GapList.subtract (g : GapList) (id : Serial) (o n : Nat) : GapList :=
  let entries := subtractFrom o n g.entries.length g.entries
  { g with entries := entries, lastChanger := if entries = g.entries then g.lastChanger else id }

/-- The pieces of an interval: one that would pass offset 1,048,575 continues at offset 0 (R21). -/
def gapPieces (o n : Nat) : List (Nat × Nat) :=
  if o + n ≤ headTurn then [(o, n)] else [(o, headTurn - o), (0, o + n - headTurn)]

/-- A clean line's interval, or each of its pieces in turn, is subtracted (R24). -/
def GapList.subtractInterval (g : GapList) (id : Serial) (o n : Nat) : GapList :=
  (gapPieces o n).foldl (fun acc p => acc.subtract id p.1 p.2) g

end Sys2Proof.Machine
end

