-- ==== Sys2Proof/Machine/Head.lean ====
section
/-! DEFINITION. The Head Drive Unit: slews (R92), settling (R93, R94), rate mode and the following error (R95, R96), faults
(R97, R98), the host's commands (R99 to R101) and the owner's requests (R102). -/

namespace Sys2Proof.Machine

/-- How the position drive goes to its target (R90, R92): in the slew direction, or by the shorter way. -/
inductive DriveWay where
  | inDirection (d : SlewDirection)
  | shorter
  deriving DecidableEq, Repr

/-- The motor drive output (R90): removed; a position with the target and the way to it that are named to the driver; or a rate
in half head counts per second with its direction (R95). -/
inductive HeadDrive where
  | removed
  | position (target : HeadCount) (way : DriveWay)
  | rate (halfCounts : Nat) (direction : SlewDirection)
  deriving DecidableEq, Repr

/-- The drive of a head state (R90, R92, R95); a part without supply or held in reset removes it (R181). -/
def State.headDrive (s : State) : HeadDrive :=
  if s.phase.up then
    match s.hdu.state with
    | .unpowered | .fault => .removed
    | .idle | .settling => .position s.hdu.target .shorter
    | .slewing => .position s.hdu.target (.inDirection s.hdu.direction)
    | .sweeping => .rate s.hdu.rate .positive
  else .removed

/-- The head distance: the shorter way between target and count (R92). -/
def headDistance (target count : HeadCount) : Nat := min (target - count).toNat (count - target).toNat

/-- The slew direction: POSITIVE when (target − count) mod 2^20 is 524,288 or less (R92). -/
def slewDirection (target count : HeadCount) : SlewDirection :=
  if (target - count).toNat ≤ 524288 then .positive else .negative

/-- 1/80,000,000 head counts, the part in which the reference position is exact (R95). -/
abbrev countUnit : Nat := 80000000

/-- The following error in 1/80,000,000 head counts: reference position minus head count, modulo a turn, signed (R95, R96). -/
def followingExact (start : HeadCount × Tick) (rate : Nat) (count : HeadCount) (now : Tick) : Int :=
  let ref := start.1.toNat * countUnit + rate * ticksFrom start.2 now
  let d := (ref + (headTurn - count.toNat) * countUnit) % (headTurn * countUnit)
  if 524288 * countUnit < d then (d : Int) - (headTurn * countUnit : Nat) else d

/-- The following error in whole head counts; the rounding of a fraction is open (log 12). -/
def followingWhole (exact : Int) : Int :=
  if exact % countUnit = 0 then exact / countUnit
  else if Config.followingRoundsUp exact then exact / countUnit + 1
  else exact / countUnit

/-- The exact following error now; 0 without a reference start. -/
def State.followingNow (s : State) : Int :=
  match s.hdu.referenceStart with
  | none => 0
  | some r => followingExact r s.hdu.rate s.pins.headCount s.now

/-- While SWEEPING the last following error is kept up to date (R96). -/
def syncFollowing (s : State) : State :=
  if s.hdu.state = .sweeping then s.setHdu { s.hdu with lastFollowing := followingWhole s.followingNow } else s

/-- The head encoder reads a count (R89, log 6). -/
def readHead (count : HeadCount) (s : State) : State := syncFollowing (s.setPins { s.pins with headCount := count })

/-- The head enters FAULT (R98): drive removed, timers stopped, reason recorded, HEAD_IDLE falls if it was IDLE, HEAD_FAULT
appended, the owner told, the owner NONE. -/
def headFaults (reason : HeadFault) (s : State) : State × List Told :=
  let h := s.hdu
  let s1 := s.setHdu { h with
    state := .fault, faultReason := reason, owner := .none, slewTimer := none, settleTimer := none }
  let s2 := reportChange .headIdle (h.state == .idle) false s1
  (appendEvent (.headFault reason h.state h.owner h.target s.pins.headCount h.lastFollowing) s2, [.headFault h.owner])

/-- The head record at the beginning of a slew to `target` (R92, R93, R94, R99). -/
def Hdu.slew (h : Hdu) (target count : HeadCount) (slewEnd settleEnd : Tick) : Hdu :=
  let near := headDistance target count ≤ 8
  { h with
    state := if near then .settling else .slewing, target := target, direction := slewDirection target count,
    slewTimer := some slewEnd, settleTimer := if near then some settleEnd else none }

/-- A slew, commanded or requested (R92, R99, R102). It is not taken in FAULT. From UNPOWERED with the driver fault input
asserted the head faults at once (R97). -/
def slewTo (target : HeadCount) (s : State) : State × List Told :=
  match s.hdu.state with
  | .fault => (s, [])
  | old =>
    let s1 := s.setHdu (s.hdu.slew target s.pins.headCount (s.expiryIn 800000000) (s.expiryIn 2000000))
    let s2 := reportChange .headIdle (old == .idle) false s1
    if old = .unpowered ∧ s.pins.headFault then headFaults .driver s2 else (s2, [])

/-- A hold, commanded or requested (R100, R102): not taken in UNPOWERED and FAULT, no change in IDLE. -/
def holdHead (s : State) : State :=
  match s.hdu.state with
  | .slewing | .settling =>
    s.setHdu { s.hdu with
      state := .settling, target := s.pins.headCount, settleTimer := some (s.expiryIn 2000000) }
  | .sweeping =>
    s.setHdu { s.hdu with
      state := .settling, target := s.pins.headCount, settleTimer := some (s.expiryIn 2000000),
      slewTimer := some (s.expiryIn 800000000) }
  | .unpowered | .idle | .fault => s

/-- The rate request, taken in IDLE (R95): HEAD_IDLE falls (R103). -/
def rateRequest (rate : Nat) (s : State) : State :=
  match s.hdu.state with
  | .idle =>
    reportEdge .headIdle false (s.setHdu { s.hdu with
      state := .sweeping, rate := rate, referenceStart := some (s.pins.headCount, s.now), lastFollowing := 0 })
  | _ => s

/-- HEAD_SLEW (R99): the reply carries the state after, the target and the slew direction. -/
def cmdHeadSlew (azimuth : BitVec 24) (s : State) : CmdResult :=
  if headTurn ≤ azimuth.toNat then refuse s .range
  else if s.hdu.owner ≠ .none ∨ s.hdu.state = .fault then refuse s .state
  else
    let r := slewTo (BitVec.ofNat 20 azimuth.toNat) s
    okWith r.1 (byte r.1.hdu.state.ctorIdx ++ le 3 r.1.hdu.target.toNat ++ byte r.1.hdu.direction.ctorIdx) r.2

/-- HEAD_HOLD (R100): the reply carries the state after and the target. -/
def cmdHeadHold (s : State) : CmdResult :=
  if s.hdu.owner ≠ .none ∨ s.hdu.state = .unpowered ∨ s.hdu.state = .fault then refuse s .state
  else okWith (holdHead s) (byte (holdHead s).hdu.state.ctorIdx ++ le 3 (holdHead s).hdu.target.toNat)

/-- HEAD_RELEASE (R101): the reply carries the fault reason as it stood before. -/
def cmdHeadRelease (s : State) : CmdResult :=
  if s.hdu.owner ≠ .none then refuse s .state
  else match s.hdu.state with
  | .slewing | .settling | .sweeping => refuse s .state
  | .idle =>
    okWith (reportEdge .headIdle false (s.setHdu { s.hdu with state := .unpowered })) (byte s.hdu.faultReason.ctorIdx)
  | .fault =>
    okWith (s.setHdu { s.hdu with state := .unpowered, faultReason := .none }) (byte s.hdu.faultReason.ctorIdx)
  | .unpowered => okWith s (byte s.hdu.faultReason.ctorIdx)

/-- The magnitude of the following error exceeds 256 counts in SWEEPING (R96). -/
def State.followingExceeds (s : State) : Bool :=
  s.hdu.state == .sweeping && decide (256 * countUnit < s.followingNow.natAbs)

/-- The head record when its distance is watched at a count (R93): the crossing of ±8 counts in SLEWING and SETTLING. -/
def Hdu.watched (h : Hdu) (count : HeadCount) (settleEnd : Tick) : Hdu :=
  match h.state with
  | .slewing =>
    if headDistance h.target count ≤ 8 then { h with state := .settling, settleTimer := some settleEnd } else h
  | .settling =>
    if headDistance h.target count ≤ 8 then { h with settleTimer := some (h.settleTimer.getD settleEnd) }
    else { h with settleTimer := none }
  | .unpowered | .idle | .sweeping | .fault => h

/-- The head encoder comes to a count: in SLEWING and SETTLING its distance is watched (R93), in SWEEPING its following error
(R96). Every command that brings a head count brings it so. -/
def headMoves (count : HeadCount) (s : State) : State × List Told :=
  let s1 := readHead count s
  if s1.followingExceeds then headFaults .following s1
  else (s1.setHdu (s1.hdu.watched count (s1.expiryIn 2000000)), [])

/-- The settle timer runs out (R93): IDLE, both timers stopped, HEAD_IDLE rises. -/
def headSettles (s : State) : State :=
  reportEdge .headIdle true (s.setHdu { s.hdu with state := .idle, slewTimer := none, settleTimer := none })

/-- The settle timer is due in SETTLING (R93). -/
def State.settleDue (s : State) : Bool := s.hdu.state == .settling && s.due s.hdu.settleTimer

/-- The slew timer runs out in SLEWING or SETTLING (R94). -/
def slewTimeout (s : State) : State × List Told :=
  if (s.hdu.state = .slewing ∨ s.hdu.state = .settling) ∧ s.due s.hdu.slewTimer then headFaults .slewTimeout s
  else (s, [])

/-- The head states in which a driver fault is taken (R97). -/
def HeadState.driven : HeadState → Bool
  | .idle | .slewing | .settling | .sweeping => true
  | .unpowered | .fault => false

/-- The driver fault input takes a level; becoming asserted in a driven state faults the head (R97). -/
def headDriverFault (asserted : Bool) (s : State) : State × List Told :=
  let s1 := s.setPins { s.pins with headFault := asserted }
  if asserted ∧ ¬ s.pins.headFault ∧ s.hdu.state.driven then headFaults .driver s1 else (s1, [])

end Sys2Proof.Machine
end

