-- ==== Sys2Proof/Machine/Operands.lean ====
section
/-! DEFINITION. The operands of host commands: their kinds and payload bytes (R164, R166, R167), both ways, and the profile
that PROFILE_SET's fields spell (R1, R2). -/

namespace Sys2Proof.Machine

/-! ### Payloads -/

/-- The kind of a host command (R166). -/
def hostKind : HostCmd → Byte
  | .statusQuery .. => 0x01 | .reset => 0x02 | .profileSet .. => 0x03 | .profileGet .. => 0x04 | .sweepStart .. => 0x05
  | .sweepAbort => 0x06 | .gapsGet => 0x07 | .mirrorSpin .. => 0x08 | .mirrorPark .. => 0x09 | .mirrorStop => 0x0A
  | .headSlew .. => 0x0B | .headHold => 0x0C | .headRelease => 0x0D | .emitRequest .. => 0x0E | .emitRenew .. => 0x0F
  | .emitOff => 0x10 | .calSet .. => 0x11 | .calGet .. => 0x12 | .calCommit .. => 0x13 | .calRevert .. => 0x14
  | .stationSet .. => 0x15 | .stationClear .. => 0x16 | .stationGet .. => 0x17 | .photoRunStart => 0x18
  | .photoRunAbort => 0x19 | .subscribe .. => 0x1A | .prioritySet .. => 0x1B | .timebaseRestore => 0x1C

/-- The two bytes of a field. -/
def bytes2 (v : Half) : List Byte := [v.setWidth 8, (v >>> 8).setWidth 8]

/-- The three bytes of a field. -/
def bytes3 (v : BitVec 24) : List Byte := [v.setWidth 8, (v >>> 8).setWidth 8, (v >>> 16).setWidth 8]

/-- The field of two bytes, little-endian. -/
def word2 (a b : Byte) : Half := b ++ a

/-- The field of three bytes, little-endian. -/
def word3 (a b c : Byte) : BitVec 24 := c ++ (b ++ a : BitVec 16)

/-- The time and gain pairs of STATION_SET (R167). -/
def exposureBytes (l : List (BitVec 24 × Byte)) : List Byte := l.flatMap fun e => bytes3 e.1 ++ [e.2]

/-- The payload of a host command (R167). -/
def hostPayload : HostCmd → List Byte
  | .statusQuery clear => [clear]
  | .profileSet bank speed pulses windowStart windowEnd azStep echoMode keepEmpty =>
    [bank, speed] ++ bytes2 pulses ++ bytes2 windowStart ++ bytes2 windowEnd ++ bytes2 azStep ++ [echoMode, keepEmpty]
  | .profileGet bank => [bank]
  | .sweepStart sweepId kind bank a0 length => bytes2 sweepId ++ [kind, bank] ++ bytes3 a0 ++ bytes3 length
  | .mirrorSpin speed => [speed]
  | .mirrorPark count => bytes2 count
  | .headSlew azimuth => bytes3 azimuth
  | .emitRequest duration => [duration]
  | .emitRenew token duration => bytes2 token ++ [duration]
  | .calSet page index value => [page, index] ++ bytes2 value
  | .calGet page => [page]
  | .calCommit mask => [mask]
  | .calRevert mask => [mask]
  | .stationSet station azimuth elevation count exposures =>
    [station] ++ bytes3 azimuth ++ bytes2 elevation ++ [count] ++ exposureBytes exposures
  | .stationClear station => [station]
  | .stationGet station => [station]
  | .subscribe condition edge => [condition, edge]
  | .prioritySet source level => [source, level]
  | .reset | .sweepAbort | .gapsGet | .mirrorStop | .headHold | .headRelease | .emitOff | .photoRunStart
  | .photoRunAbort | .timebaseRestore => []

/-- The frame of a host command with its tag. -/
def hostFrame (tag : Byte) (c : HostCmd) : Frame := { kind := hostKind c, tag := tag, payload := hostPayload c }

/-- The pairs of STATION_SET, read back; none when the bytes are no whole number of pairs. -/
def readExposures : List Byte → Option (List (BitVec 24 × Byte))
  | [] => some []
  | a :: b :: c :: g :: rest => (readExposures rest).map ((word3 a b c, g) :: ·)
  | _ => none

/-- STATION_SET with a payload of 11, 15 or 19 bytes; an exposure count within 1 to 3 must fit that length (R164). -/
def readStationSet : List Byte → Option HostCmd
  | st :: a :: b :: c :: d :: e :: count :: rest =>
    match readExposures rest with
    | some exposures =>
      if exposures.length = 0 ∨ 3 < exposures.length then none
      else if 1 ≤ count.toNat ∧ count.toNat ≤ 3 ∧ count.toNat ≠ exposures.length then none
      else some (.stationSet st (word3 a b c) (word2 d e) count exposures)
    | none => none
  | _ => none

/-- A command kind's payload as the dispatcher reads it: none when the length does not fit the kind (R164, R166, R167). -/
def readPayload (kind : Nat) (p : List Byte) : Option HostCmd :=
  match kind, p with
  | 0x01, [clear] => some (.statusQuery clear)
  | 0x02, [] => some .reset
  | 0x03, [bank, speed, p0, p1, s0, s1, e0, e1, z0, z1, mode, keep] =>
    some (.profileSet bank speed (word2 p0 p1) (word2 s0 s1) (word2 e0 e1) (word2 z0 z1) mode keep)
  | 0x04, [bank] => some (.profileGet bank)
  | 0x05, [i0, i1, kind, bank, a0, a1, a2, l0, l1, l2] =>
    some (.sweepStart (word2 i0 i1) kind bank (word3 a0 a1 a2) (word3 l0 l1 l2))
  | 0x06, [] => some .sweepAbort
  | 0x07, [] => some .gapsGet
  | 0x08, [speed] => some (.mirrorSpin speed)
  | 0x09, [c0, c1] => some (.mirrorPark (word2 c0 c1))
  | 0x0A, [] => some .mirrorStop
  | 0x0B, [a, b, c] => some (.headSlew (word3 a b c))
  | 0x0C, [] => some .headHold
  | 0x0D, [] => some .headRelease
  | 0x0E, [duration] => some (.emitRequest duration)
  | 0x0F, [t0, t1, duration] => some (.emitRenew (word2 t0 t1) duration)
  | 0x10, [] => some .emitOff
  | 0x11, [page, index, v0, v1] => some (.calSet page index (word2 v0 v1))
  | 0x12, [page] => some (.calGet page)
  | 0x13, [mask] => some (.calCommit mask)
  | 0x14, [mask] => some (.calRevert mask)
  | 0x15, bytes => readStationSet bytes
  | 0x16, [station] => some (.stationClear station)
  | 0x17, [station] => some (.stationGet station)
  | 0x18, [] => some .photoRunStart
  | 0x19, [] => some .photoRunAbort
  | 0x1A, [condition, edge] => some (.subscribe condition edge)
  | 0x1B, [source, level] => some (.prioritySet source level)
  | 0x1C, [] => some .timebaseRestore
  | _, _ => none

/-- A kind of the command catalogue (R166). -/
def knownKind (kind : Byte) : Bool := decide (1 ≤ kind.toNat) && decide (kind.toNat ≤ 0x1C)

/-- The dispatcher's first two judgements of a frame: its kind, then its length (R164). -/
inductive Judged where
  | unknownKind
  | badLength
  | command (c : HostCmd)
  deriving DecidableEq, Repr

def judge (f : Frame) : Judged :=
  if knownKind f.kind then
    match readPayload f.kind.toNat f.payload with
    | some c => .command c
    | none => .badLength
  else .unknownKind

/-- The payload fits the command's kind: of STATION_SET, a length of 11, 15 or 19 bytes that a count within 1 to 3 agrees
with (R164). -/
def hostFits : HostCmd → Bool
  | .stationSet _ _ _ count exposures =>
    decide (1 ≤ exposures.length) && decide (exposures.length ≤ 3)
      && decide (1 ≤ count.toNat → count.toNat ≤ 3 → count.toNat = exposures.length)
  | _ => true

/-! ### Field values -/

/-- A two-valued field (R167). -/
def yesNo (b : Byte) : Option Bool := if b = 0 then some false else if b = 1 then some true else none

/-- The permitted numbers of pulses per line (R1, R167). -/
def pulseCountOf : Nat → Option PulseCount
  | 512 => some .p512 | 1024 => some .p1024 | 2048 => some .p2048 | 4096 => some .p4096 | 8192 => some .p8192
  | _ => none

def echoModeOf : Nat → Option EchoMode
  | 0 => some .first | 1 => some .last | 2 => some .strongest | 3 => some .all | _ => none

def speedOf (n : Nat) : Option (Fin 4) := if h : n < 4 then some ⟨n, h⟩ else none

/-- The window length L (R2). -/
def Profile.windowLength (p : Profile) : Nat := p.windowEnd + 1 - p.windowStart

/-- Twice the revolutions per second of a speed index (R1). -/
def doubleRevs : Fin 4 → Nat
  | 0 => 25
  | 1 => 50
  | 2 => 100
  | 3 => 200

/-- The window and the step within their ranges (R1). -/
def Profile.inRange (p : Profile) : Bool :=
  decide (512 ≤ p.windowStart) && decide (p.windowStart ≤ p.windowEnd) && decide (p.windowEnd ≤ 15871)
    && decide (1 ≤ p.azStep) && decide (p.azStep ≤ 4096)

/-- The emission rate is at most 1,000,000 pulses per second: P × R × 16,384 against 1,000,000 × L, exactly (R2). -/
def Profile.rateAllowed (p : Profile) : Bool :=
  decide (p.pulses.toNat * doubleRevs p.speed * 16384 ≤ 2000000 * p.windowLength)

/-- All the checks that PROFILE_SET makes of a profile (R2, R126). -/
def Profile.accepted (p : Profile) : Bool :=
  p.inRange && decide (p.pulses.toNat ≤ p.windowLength) && p.rateAllowed

/-- The emission rate, rounded down to whole pulses per second (R2). -/
def Profile.emissionRate (p : Profile) : Nat :=
  p.pulses.toNat * doubleRevs p.speed * 16384 / (2 * p.windowLength)

/-- The profile that PROFILE_SET's fields spell, if every field lies in its range and the checks pass (R2). -/
def profileOf (speed : Byte) (pulses windowStart windowEnd azStep : Half) (echoMode keepEmpty : Byte) :
    Option Profile :=
  match speedOf speed.toNat, pulseCountOf pulses.toNat, echoModeOf echoMode.toNat, yesNo keepEmpty with
  | some sp, some n, some m, some k =>
    let p : Profile :=
      { speed := sp, pulses := n, windowStart := windowStart.toNat, windowEnd := windowEnd.toNat,
        azStep := azStep.toNat, echoMode := m, keepEmpty := k }
    if p.accepted then some p else none
  | _, _, _, _ => none

/-- The seven fields of a profile on the link (R3, R167). -/
def Profile.bytes (p : Profile) : List Byte :=
  byte p.speed.val ++ le 2 p.pulses.toNat ++ le 2 p.windowStart ++ le 2 p.windowEnd ++ le 2 p.azStep
    ++ byte p.echoMode.ctorIdx ++ flag p.keepEmpty

end Sys2Proof.Machine
end

