-- ==== Sys2Proof/Machine/Calibration.lean ====
section
/-! DEFINITION. The Calibration Unit and its store: point corrections (R121 to R123) and camera targets (R124), the test and
load of store pages (R126, R127), the editing and reading commands (R2, R3, R128 to R130), commits (R131, R132) and their
cutting short (R134, R135). -/

namespace Sys2Proof.Machine

/-- Entry `i` of a page's table. -/
def entryAt {n : Nat} (v : Vector Int n) (i : Nat) : Int := v[i]?.getD 0

/-! ### Corrections -/

/-- The correction of the fine vertical angle at mirror count `c`: page 0, interpolated between sector centres, rounded
toward negative infinity (R121). -/
def vangleCorrection (page : Vector Int 64) (c : MirrorCount) : Int :=
  let u := (c - 128#14).toNat
  let i := u / 256
  let f : Int := (u % 256 : Nat)
  (entryAt page i * (256 - f) + entryAt page ((i + 1) % 64) * f) / 256

/-- The corrected fine vertical angle (R121). -/
def correctVangle (page : Vector Int 64) (c : MirrorCount) : FineAngle :=
  BitVec.ofInt 18 (16 * (c.toNat : Int) + vangleCorrection page c)

/-- The corrected azimuth: page 1 by the mirror sector (R122). -/
def correctAzimuth (page : Vector Int 64) (c : MirrorCount) (h : HeadCount) : HeadCount :=
  BitVec.ofInt 20 ((h.toNat : Int) + entryAt page (c.toNat / 256))

/-- A sum clamped to the range of a range (R123). -/
def clampRange (v : Int) : Range := BitVec.ofNat 24 (min v.toNat 16777215)

/-- The corrected range of an echo: page 2's offset and the walk entry of its amplitude (R123). -/
def correctRange (offset : Int) (walk : Vector Int 16) (e : RawEcho) : Range :=
  clampRange ((e.range.toNat : Int) + offset + entryAt walk (e.amplitude.toNat / 256))

/-- The head target of a station (R124). -/
def cameraAzimuth (p : Pages) (azimuth : HeadCount) : HeadCount :=
  BitVec.ofInt 20 ((azimuth.toNat : Int) + p.cameraAzimuth)

/-- The mirror park target of a station (R124). -/
def cameraElevation (p : Pages) (elevation : MirrorCount) : MirrorCount :=
  BitVec.ofInt 14 ((elevation.toNat : Int) + p.cameraElevation)

/-! ### Pages -/

/-- A value lies in a range of whole numbers. -/
def within (lo hi v : Int) : Bool := decide (lo ≤ v) && decide (v ≤ hi)

/-- Every value of a page lies in its range (R120), and every bank passes PROFILE_SET's checks (R126). -/
def pageInRange (p : Fin 5) (c : Pages) : Bool :=
  match p with
  | 0 => c.vangle.toList.all (within (-4096) 4096)
  | 1 => c.hangle.toList.all (within (-2048) 2048)
  | 2 => within (-32768) 32767 c.rangeOffset && c.walk.toList.all (within (-2048) 2048)
  | 3 => within (-8192) 8192 c.cameraAzimuth && within (-512) 512 c.cameraElevation
  | 4 => c.banks.toList.all Profile.accepted

/-- `dst` with page `p` taken from `src`. -/
def copyPage (p : Fin 5) (src dst : Pages) : Pages :=
  match p with
  | 0 => { dst with vangle := src.vangle }
  | 1 => { dst with hangle := src.hangle }
  | 2 => { dst with rangeOffset := src.rangeOffset, walk := src.walk }
  | 3 => { dst with cameraAzimuth := src.cameraAzimuth, cameraElevation := src.cameraElevation }
  | 4 => { dst with banks := src.banks }

/-- A store page is valid (R126). -/
def Cal.pageValid (c : Cal) (p : Fin 5) : Bool :=
  c.checkAgrees.has p && !c.invalid.has p && pageInRange p c.stored

/-- Test store page `p` and load it: valid, the working page takes its contents and its unsaved flag is cleared; invalid,
the factory defaults, the flag set, and the page goes into the defaulted mask (R126). -/
def Cal.loadPage (c : Cal) (p : Fin 5) : Cal :=
  if c.pageValid p then
    { c with working := copyPage p c.stored c.working, unsaved := c.unsaved.remove p }
  else
    { c with
      working := copyPage p Pages.defaults c.working, unsaved := c.unsaved.add p, defaulted := c.defaulted.add p }

/-- Load the selected pages in ascending order; the defaulted mask is that of this load (R127, R130). -/
def Cal.load (c : Cal) (m : PageMask) : Cal := m.pages.foldl Cal.loadPage { c with defaulted := 0 }

/-- The Calibration Unit after a reset, loading from its store (R125, R127, log 9). -/
def Cal.startUp (c : Cal) : Cal :=
  { c with
    state := .loading, commitMask := 0, page := none, pageWriteEnd := none, outcomes := [], lastCommit := none }.load 31

/-! ### Editing and reading -/

/-- PROFILE_SET (R2): RANGE first, then BUSY while the store is WRITING; the reply carries L and the emission rate. -/
def cmdProfileSet (bank speed : Byte) (pulses windowStart windowEnd azStep : Half) (echoMode keepEmpty : Byte)
    (s : State) : CmdResult :=
  if h : bank.toNat < 4 then
    match profileOf speed pulses windowStart windowEnd azStep echoMode keepEmpty with
    | some p =>
      if s.cal.state = .writing then refuse s .busy
      else
        okWith (s.setCal { s.cal with
            working := { s.cal.working with banks := s.cal.working.banks.set bank.toNat p h },
            unsaved := s.cal.unsaved.add 4 })
          (le 2 p.windowLength ++ le 3 p.emissionRate)
    | none => refuse s .range
  else refuse s .range

/-- PROFILE_GET (R3): the seven fields, L and the emission rate. -/
def cmdProfileGet (bank : Byte) (s : State) : CmdResult :=
  match s.cal.working.banks[bank.toNat]? with
  | some p => okWith s (p.bytes ++ le 2 p.windowLength ++ le 3 p.emissionRate)
  | none => refuse s .range

/-- A value of a working page that CAL_SET addresses, and its range (R120, R128). -/
structure CalValue where
  held : Int
  low  : Int
  high : Int

/-- The value that page and index address; none outside the ranges of R128. -/
def calValueAt (w : Pages) (page index : Nat) : Option CalValue :=
  match page with
  | 0 => w.vangle[index]?.map fun v => { held := v, low := -4096, high := 4096 }
  | 1 => w.hangle[index]?.map fun v => { held := v, low := -2048, high := 2048 }
  | 2 =>
    match index with
    | 0 => some { held := w.rangeOffset, low := -32768, high := 32767 }
    | i + 1 => w.walk[i]?.map fun v => { held := v, low := -2048, high := 2048 }
  | 3 =>
    match index with
    | 0 => some { held := w.cameraAzimuth, low := -8192, high := 8192 }
    | 1 => some { held := w.cameraElevation, low := -512, high := 512 }
    | _ => none
  | _ => none

/-- The working pages with the addressed value replaced (R128). -/
def calWrite (w : Pages) (page index : Nat) (v : Int) : Pages :=
  match page with
  | 0 => { w with vangle := w.vangle.setIfInBounds index v }
  | 1 => { w with hangle := w.hangle.setIfInBounds index v }
  | 2 =>
    match index with
    | 0 => { w with rangeOffset := v }
    | i + 1 => { w with walk := w.walk.setIfInBounds i v }
  | 3 =>
    match index with
    | 0 => { w with cameraAzimuth := v }
    | _ => { w with cameraElevation := v }
  | _ => w

/-- A page number as the mask's. -/
def pageOf (n : Nat) : Fin 5 := if h : n < 5 then ⟨n, h⟩ else 4

/-- A sweep or a photo run is in progress (R128, R130). -/
def State.tablesHeld (s : State) : Bool := s.scu.state != .idle || s.phu.state != .idle

/-- CAL_SET (R128): the checks RANGE, STATE, BUSY; the reply carries page, index, the value now held and the one replaced. -/
def cmdCalSet (page index : Byte) (value : Half) (s : State) : CmdResult :=
  match calValueAt s.cal.working page.toNat index.toNat with
  | some old =>
    if within old.low old.high value.toInt then
      if s.tablesHeld then refuse s .state
      else if s.cal.state = .writing then refuse s .busy
      else
        okWith (s.setCal { s.cal with
            working := calWrite s.cal.working page.toNat index.toNat value.toInt,
            unsaved := s.cal.unsaved.add (pageOf page.toNat) })
          (byte page.toNat ++ byte index.toNat ++ leInt 2 value.toInt ++ leInt 2 old.held)
    else refuse s .range
  | none => refuse s .range

/-- The contents of working page 0 to 3 in index order (R129). -/
def pageBytes (w : Pages) : Nat → Option (List Byte)
  | 0 => some (w.vangle.toList.flatMap (leInt 2))
  | 1 => some (w.hangle.toList.flatMap (leInt 2))
  | 2 => some (leInt 2 w.rangeOffset ++ w.walk.toList.flatMap (leInt 2))
  | 3 => some (leInt 2 w.cameraAzimuth ++ leInt 2 w.cameraElevation)
  | _ => none

/-- CAL_GET (R129). -/
def cmdCalGet (page : Byte) (s : State) : CmdResult :=
  match pageBytes s.cal.working page.toNat with
  | some body => okWith s (byte page.toNat ++ flag (s.cal.unsaved.has (pageOf page.toNat)) ++ body)
  | none => refuse s .range

/-- A page mask field: 1 to 31 (R130, R131). -/
def maskOf (b : Byte) : Option PageMask :=
  if 1 ≤ b.toNat ∧ b.toNat ≤ 31 then some (b.setWidth 5) else none

/-- CAL_REVERT (R130): the checks RANGE, STATE, BUSY; the reply carries the mask and the defaulted mask. -/
def cmdCalRevert (mask : Byte) (s : State) : CmdResult :=
  match maskOf mask with
  | some m =>
    if s.tablesHeld then refuse s .state
    else if s.cal.state = .writing then refuse s .busy
    else okWith (s.setCal (s.cal.load m)) (byte m.toNat ++ byte (s.cal.load m).defaulted.toNat)
  | none => refuse s .range

/-! ### Commits -/

/-- Begin the write of page `p`: page in progress, page write end, invalid mark (R132). -/
def Cal.beginPage (c : Cal) (p : Fin 5) (writeEnd : Tick) : Cal :=
  { c with page := some p, pageWriteEnd := some writeEnd, invalid := c.invalid.add p }

/-- The duration of a page write in ticks (R132). -/
abbrev pageWriteTicks : Nat := 1000000

/-- CAL_COMMIT (R131): RANGE, then BUSY while WRITING; the reply carries the mask and the number of pages. -/
def cmdCalCommit (mask : Byte) (s : State) : CmdResult :=
  match maskOf mask with
  | some m =>
    if s.cal.state = .writing then refuse s .busy
    else
      let c := { s.cal with commitMask := m, outcomes := [], state := .writing }
      okWith
        (s.setCal (match m.pages with
          | p :: _ => c.beginPage p (s.expiryIn pageWriteTicks)
          | [] => c))
        (byte m.toNat ++ byte m.pages.length)
  | none => refuse s .range

/-- The store page at the end of its write (R132): the contents the working page holds; on OK the check agrees, the
invalid mark and the unsaved flag are cleared; on VERIFY_FAIL the mark and the flag stay as they stand and the check is open
(log 11); an unsaved flag that was clear at the commit stays clear, which is the model's choice (log 35). The outcome is added
to the outcomes so far. -/
def Cal.finishPage (c : Cal) (p : Fin 5) (ok checkAgrees : Bool) : Cal :=
  { c with
    stored := copyPage p c.working c.stored
    checkAgrees := if ok || checkAgrees then c.checkAgrees.add p else c.checkAgrees.remove p
    invalid := if ok then c.invalid.remove p else c.invalid
    unsaved := if ok then c.unsaved.remove p else c.unsaved
    outcomes := c.outcomes ++ [(p, ok)]
    page := none
    pageWriteEnd := none }

/-- The commit ends: the last commit takes mask and outcomes, the store enters IDLE (R132). -/
def Cal.commitEnds (c : Cal) : Cal :=
  { c with lastCommit := some (c.commitMask, c.outcomes), commitMask := 0, outcomes := [], state := .idle }

/-- The selected pages above `p` (R132). -/
def PageMask.above (m : PageMask) (p : Fin 5) : List (Fin 5) := m.pages.filter fun q => p.val < q.val

/-- The tick counter reaches the page write end (R132): the page ends with its outcome; the next selected page begins, or the
commit ends with STORE_DONE. In the reset wait no further page begins and no STORE_DONE is sent (R134, log 23). -/
def pageWriteEnd (agrees : Bool) (s : State) : State :=
  match s.cal.page with
  | none => s
  | some p =>
    if s.due s.cal.pageWriteEnd then
      let c := s.cal.finishPage p agrees (Config.failedCheckAgrees s.freeDraw)
      let s1 := s.setFreeDraw (s.freeDraw + 1)
      if s.phase = .resetWait then s1.setCal c
      else
        match c.commitMask.above p with
        | q :: _ => s1.setCal (c.beginPage q (s.expiryIn pageWriteTicks))
        | [] => appendEvent (.storeDone c.commitMask c.outcomes) (s1.setCal c.commitEnds)
    else s

/-- A table cut off in its writing: each value new or old (log 11), the first value standing at place `at0`. -/
def cutTable {α : Type} (draw at0 : Nat) : List α → List α → List α
  | o :: os, n :: ns => (if Config.cutTakesNew draw at0 then n else o) :: cutTable draw (at0 + 1) os ns
  | os, _ => os

/-- A table with the values of a list. -/
def tableOf {α : Type} {n : Nat} (v : Vector α n) (l : List α) : Vector α n :=
  if h : l.length = n then ⟨l.toArray, by simpa using h⟩ else v

/-- The store pages with page `p` cut off in the middle of its write (R135, log 11). -/
def cutPage (draw : Nat) (p : Fin 5) (old new : Pages) : Pages :=
  match p with
  | 0 => { old with vangle := tableOf old.vangle (cutTable draw 0 old.vangle.toList new.vangle.toList) }
  | 1 => { old with hangle := tableOf old.hangle (cutTable draw 0 old.hangle.toList new.hangle.toList) }
  | 2 =>
    { old with
      rangeOffset := if Config.cutTakesNew draw 0 then new.rangeOffset else old.rangeOffset
      walk := tableOf old.walk (cutTable draw 1 old.walk.toList new.walk.toList) }
  | 3 =>
    { old with
      cameraAzimuth := if Config.cutTakesNew draw 0 then new.cameraAzimuth else old.cameraAzimuth
      cameraElevation := if Config.cutTakesNew draw 1 then new.cameraElevation else old.cameraElevation }
  | 4 => { old with banks := tableOf old.banks (cutTable draw 0 old.banks.toList new.banks.toList) }

/-- A power-on reset or the loss of the supply cuts a page write off: its invalid mark stays set, its contents are partly old
and partly new (R135). -/
def cutPageWrite (s : State) : State :=
  match s.cal.page with
  | none => s
  | some p =>
    (s.setFreeDraw (s.freeDraw + 1)).setCal { s.cal with
      stored := cutPage s.freeDraw p s.cal.stored s.cal.working
      checkAgrees :=
        if Config.cutCheckAgrees s.freeDraw then s.cal.checkAgrees.add p else s.cal.checkAgrees.remove p
      page := none
      pageWriteEnd := none }

end Sys2Proof.Machine
end

