-- ==== Sys2Proof/Machine/Ring.lean ====
section
/-! DEFINITION. The Line Assembler and the Point Former's work: pulse positions (R47), the selection and correction of
echoes (R66, R67), points and omissions (R34, R35), the opening of a line (R28), retirements as the line counts them (R31,
R53), and the drain of a slot (R40). -/

namespace Sys2Proof.Machine

/-- The position of pulse `i`: Ws + floor(i × L / P) (R47). -/
def Profile.position (p : Profile) (i : Nat) : Nat := p.windowStart + i * p.windowLength / p.pulses.toNat

/-! ### Echoes and points -/

/-- The echo that stands first among those no other one beats (R66: "the one that stands earlier in the record"). -/
def pickEcho (beats : RawEcho → RawEcho → Bool) : List RawEcho → Option RawEcho
  | [] => none
  | e :: es => some (es.foldl (fun best x => if beats x best then x else best) e)

/-- An echo as it is written: its range corrected, its amplitude unchanged (R67). -/
def writtenEcho (w : Pages) (e : RawEcho) : Echo :=
  { range := correctRange w.rangeOffset w.walk e, amplitude := e.amplitude }

/-- Put an echo into a list in ascending corrected range, behind its equals (R66). -/
def placeEcho (e : Echo) : List Echo → List Echo
  | [] => [e]
  | x :: xs => if e.range < x.range then e :: x :: xs else x :: placeEcho e xs

/-- The echoes of the point (R66). -/
def selectEchoes (mode : EchoMode) (w : Pages) (es : List RawEcho) : List Echo :=
  match mode with
  | .first => ((pickEcho (fun a b => decide (a.range < b.range)) es).map (writtenEcho w)).toList
  | .last => ((pickEcho (fun a b => decide (b.range < a.range)) es).map (writtenEcho w)).toList
  | .strongest =>
    ((pickEcho (fun a b => decide (b.amplitude < a.amplitude) ||
      (a.amplitude == b.amplitude && decide (a.range < b.range))) es).map (writtenEcho w)).toList
  | .all => (es.map (writtenEcho w)).foldl (fun acc e => placeEcho e acc) []

/-- The number of echoes written into the point (R65, R66). -/
def writtenCount (mode : EchoMode) (es : List RawEcho) : Nat :=
  match mode with
  | .all => es.length
  | _ => min 1 es.length

/-- The Point Former's busy time in ticks (R65). -/
def formingTicks (written : Nat) : Nat := if written = 0 then 8 else 27 * written

/-- The point of a matched entry and its record (R67). -/
def formPoint (w : Pages) (mode : EchoMode) (e : FireEntry) (r : ReturnRecord) : Point :=
  { pulse := e.pulse, vangle := correctVangle w.vangle e.mirror, azimuth := correctAzimuth w.hangle e.mirror e.head,
    echoes := selectEchoes mode w r.echoes }

/-- A FILLING slot takes a point, or its omission (R34, R35): matched increments; an empty point is kept only where empty
points are kept, and counted as omitted otherwise. -/
def LineSlot.takePoint (sl : LineSlot) (p : Point) : LineSlot :=
  if sl.state = .filling then
    if p.echoes = [] ∧ sl.keepEmpty = false then
      { sl with matched := satInc 8192 sl.matched, omittedEmpty := satInc 8192 sl.omittedEmpty }
    else { sl with matched := satInc 8192 sl.matched, points := sl.points ++ [p] }
  else sl

/-- A FILLING slot counts an entry retired LOST (R31, R53). -/
def LineSlot.takeLost (sl : LineSlot) : LineSlot :=
  if sl.state = .filling then { sl with lost := satInc 8192 sl.lost } else sl

/-- The Point Former hands its point to the slot its entry names, and is free (R67). -/
def handOver (s : State) : State :=
  match s.pfm with
  | none => s
  | some work =>
    let sl := s.las.slots[work.entry.slot]
    (s.setSlot work.entry.slot (sl.takePoint (formPoint s.cal.working sl.echoMode work.entry work.record))).setPfm none

/-- An entry is retired LOST (R53). -/
def retireLost (s : State) (e : FireEntry) : State := s.setSlot e.slot s.las.slots[e.slot].takeLost

/-- Entries are retired LOST, oldest first (R53). -/
def retireAll (es : List FireEntry) (s : State) : State := es.foldl retireLost s

/-! ### Opening and draining -/

/-- The slot following in ring order, from 7 back to 0 (R27). -/
def nextSlot (i : Fin 8) : Fin 8 := i + 1

/-- A line opened by sweep `sweepId` with index `k` (R28). -/
def openedSlot (s : State) : LineSlot :=
  { LineSlot.free with
    state := .filling, sweepId := s.scu.sweepId, lineIndex := s.scu.k, azimuth := s.pins.headCount, openTick := s.now,
    echoMode := s.scu.profile.echoMode, keepEmpty := s.scu.profile.keepEmpty,
    timebaseFallback := s.tbu.source == .fallback, scheduled := s.scu.profile.pulses.toNat }

/-- The LAS opens a line in the slot at the ring position, and RING_HIGH rises when the sixth slot is taken (R28, R44). -/
def openLine (s : State) : State :=
  let l := s.las.setSlot s.las.position (openedSlot s)
  reportChange .ringHigh (decide (6 ≤ s.las.notFree)) (decide (6 ≤ l.notFree))
    (s.setLas { l with position := nextSlot s.las.position })

/-- A chunk of the slot at the head of the LINE source has been sent. After the last one the slot becomes FREE, leaves the
source, and RING_HIGH may fall (R40, R44). -/
def chunkSent (i : Fin 8) (s : State) : State :=
  let sl := s.las.slots[i]
  if sl.chunks.length ≤ sl.chunksSent + 1 then
    let l := s.las.setSlot i LineSlot.free
    reportChange .ringHigh (decide (6 ≤ s.las.notFree)) (decide (6 ≤ l.notFree))
      (s.setLas { l with source := s.las.source.tail })
  else s.setSlot i { sl with chunksSent := sl.chunksSent + 1 }

end Sys2Proof.Machine
end

