-- ==== Sys2Proof/Machine/Seal.lean ====
section
/-! DEFINITION. The seal of a line (R36 to R38), the seal as the Scan Control Unit takes it (R11, R21, R23, R24), and the
close of a sweep (R17, R18). -/

namespace Sys2Proof.Machine

/-! ### Intervals -/

/-- The first offset of line `k`'s interval (R5, R21). -/
def Scu.lineOffset (c : Scu) (k : Nat) : Nat :=
  (c.a0 + BitVec.ofNat 20 (k * c.profile.azStep) - c.gaps.reference).toNat

/-- Add an interval to the gap list in a FULL sweep; a PATCH sweep leaves the list as it stands (R22, R23). -/
def Scu.addInterval (c : Scu) (o n : Nat) : Scu :=
  match c.kind with
  | .full => { c with gaps := c.gaps.add c.sweepId o n }
  | .patch => c

/-! ### The seal -/

/-- A sealed line is CLEAN (R38). -/
def LineSlot.clean (sl : LineSlot) : Bool := !sl.truncated && !sl.speedDeviation && !sl.returnLoss

/-- The flags and the state of a slot at its seal (R36, R37, R38). -/
def LineSlot.sealed (sl : LineSlot) (fineFailed : Bool) : LineSlot :=
  { sl with
    state := .sealed, truncated := sl.mode == .stopped, speedDeviation := fineFailed,
    returnLoss := decide (0 < sl.lost + sl.skipped) }

/-- The Scan Control Unit takes the seal of a line (R11): the counters, which saturate at N (R4), and the gap list. -/
def Scu.sealTaken (c : Scu) (sl : LineSlot) : Scu :=
  if sl.clean then
    { c with
      clean := satInc c.lines c.clean
      gaps := c.gaps.subtractInterval c.sweepId (c.lineOffset sl.lineIndex) c.profile.azStep }
  else if sl.truncated then { c with flagged := satInc c.lines c.flagged }
  else
    { c with flagged := satInc c.lines c.flagged }.addInterval (c.lineOffset sl.lineIndex) c.profile.azStep

/-- The fire log entries of a slot are retired LOST (R36, R37). -/
def retireSlot (i : Fin 8) (s : State) : State :=
  retireAll (s.rtu.fireLog.filter fun e => e.slot == i)
    (s.setRtu { s.rtu with fireLog := s.rtu.fireLog.filter fun e => e.slot != i })

/-- A point of the slot still being formed is written before the seal is complete (R34, log 13). -/
def writeFormed (i : Fin 8) (s : State) : State :=
  match s.pfm with
  | some work => if work.entry.slot = i then handOver s else s
  | none => s

/-- The seal of slot `i` (R36, R37): its entries retired, the flags decided, SEALED, appended to the LINE source, the seal
taken by the Scan Control Unit. `fineFailed`: the comparison of the sealing index pulse failed the fine tolerance. -/
def sealLine (i : Fin 8) (fineFailed : Bool) (s : State) : State :=
  let s1 := writeFormed i (retireSlot i s)
  let sl := s1.las.slots[i].sealed fineFailed
  let s2 := appendLine (.slot i) (s1.setSlot i sl)
  s2.setScu (s2.scu.sealTaken sl)

/-! ### The close of a sweep -/

/-- The result of a sweep (R17). -/
def sweepResult (cause : SweepCause) (gaps : GapList) : SweepResult :=
  match cause with
  | .hostAbort => .aborted
  | .leaseEnded | .interlock | .headFault | .prepareTimeout => .interrupted
  | .none => if gaps.entries = [] then .complete else .completeWithGaps

/-- What SWEEP_END carries (R18). -/
def Scu.report (c : Scu) : SweepEnd :=
  { sweepId := c.sweepId, kind := c.kind, result := c.result, endCause := c.endCause, lines := c.lines, decided := c.k,
    notRun := c.lines - c.k, clean := c.clean, flagged := c.flagged, lostNoLock := c.lostNoLock,
    lostNoSlot := c.lostNoSlot, gapEntries := c.gaps.entries.length, overflow := c.gaps.overflow,
    startTick := c.startTick, endTick := c.endTick }

/-- The SWEEP_END reports that wait (R39). -/
def Las.sweepEnds (l : Las) : Nat :=
  (l.source.filter fun x => match x with
    | .sweepEnd _ => true
    | .slot _ => false).length

/-- SWEEP_END is appended, unless eight already wait (R39). -/
def queueSweepEnd (r : SweepEnd) (s : State) : State :=
  if s.las.sweepEnds < 8 then appendLine (.sweepEnd r) s else s

/-- The head as a closing sweep leaves it: held and released if SWEEP still owns it (R17 steps 1 and 2). -/
def releaseHead (s : State) : State :=
  if s.hdu.owner = .sweep then (holdHead s).setHdu { (holdHead s).hdu with owner := .none } else s

/-- The Scan Control Unit leaves CLOSING (R17). -/
def sweepClose (s : State) : State :=
  let s1 := releaseHead s
  let s2 := s1.setMdu { s1.mdu with owner := .none }
  let c := { s2.scu with
    state := .idle, result := sweepResult s2.scu.endCause s2.scu.gaps, endTick := s2.now }
  queueSweepEnd c.report (s2.setScu c)

/-- The test for leaving CLOSING: no slot FILLING (R17). -/
def testClosing (s : State) : State :=
  if s.scu.state = .closing ∧ s.las.filling = none then sweepClose s else s

end Sys2Proof.Machine
end

