-- ==== Sys2Proof/Machine/Return.lean ====
section
/-! DEFINITION. The Return Unit: the firing rule (R48 to R51), return timeouts (R54), the receiver (R56, R57), the matcher
(R58 to R61), and the Point Former's hand-over (R67). -/

namespace Sys2Proof.Machine

/-! ### Firing -/

/-- A pulse fires: strobe, entry, next sequence; fired + 1 (R49). -/
def firePulse (i : Fin 8) (s : State) : State :=
  let sl := s.las.slots[i]
  (s.setRtu { s.rtu with
      strobe := some s.rtu.nextSeq
      fireLog := s.rtu.fireLog ++ [{ seq := s.rtu.nextSeq, slot := i, pulse := sl.next, mirror := s.pins.mirrorCount,
                                     head := s.pins.headCount, tick := s.now }]
      nextSeq := s.rtu.nextSeq + 1 }).setSlot i { sl with fired := satInc 8192 sl.fired, next := sl.next + 1 }

/-- A pulse is skipped (R49). -/
def skipPulse (i : Fin 8) (s : State) : State :=
  let sl := s.las.slots[i]
  s.setSlot i { sl with skipped := satInc 8192 sl.skipped, next := sl.next + 1 }

/-- A position passes unfired and unskipped (R49). -/
def passPulse (i : Fin 8) (s : State) : State :=
  let sl := s.las.slots[i]
  s.setSlot i { sl with next := sl.next + 1 }

/-- The firing rule at a pulse opportunity of slot `i` (R49). -/
def firingRule (i : Fin 8) (s : State) : State :=
  if s.gateOpen then
    if s.rtu.fireLog.length < 32 then firePulse i s else skipPulse i s
  else passPulse i s

/-- Slot `i` has a pulse opportunity at this mirror count: FIRING, a position left, and the count has reached it (R29, R48). -/
def State.opportunity (s : State) (i : Fin 8) : Bool :=
  let sl := s.las.slots[i]
  sl.mode == .firing && decide (sl.next < sl.scheduled)
    && decide (s.scu.profile.position sl.next ≤ s.pins.mirrorCount.toNat)

/-- Slot `i` takes its opportunities at this mirror count, at most `n`: the firing rule at each position that the count has
reached, in ascending pulse index (R48). -/
def takeOpportunities (i : Fin 8) : Nat → State → State
  | 0, s => s
  | n + 1, s => if s.opportunity i then takeOpportunities i n (firingRule i s) else s

/-- The mirror count has advanced: every position of the FILLING slot that it has reached is an opportunity, and all are taken
at the count that was reached (R48, log 28). -/
def pulseOpportunity (s : State) : State :=
  match s.las.filling with
  | some i => takeOpportunities i (s.las.slots[i].scheduled - s.las.slots[i].next) s
  | none => s

/-! ### Retirement -/

/-- A STOPPED slot whose last entry has retired is sealed; the seal is reported to a Scan Control Unit in CLOSING (R37, R17). -/
def sealDrained (s : State) : State :=
  match s.las.filling with
  | some i =>
    if s.las.slots[i].mode = .stopped ∧ ∀ e ∈ s.rtu.fireLog, e.slot ≠ i then testClosing (sealLine i false s) else s
  | none => s

/-! ### The matcher -/

/-- A marked record: one that carries seq high (R52). -/
def ReturnRecord.fullSeq (r : ReturnRecord) : Option Serial := r.seqHigh.map fun high => high ++ r.seqLow

/-- The first `d` entries are retired LOST and the next one MATCHED, its entry and record going to the Point Former (R60,
R61, R65). -/
def matchAt (d : Nat) (e : FireEntry) (r : ReturnRecord) (s : State) : State :=
  let log := s.rtu.fireLog
  let written := writtenCount s.las.slots[e.slot].echoMode r.echoes
  (retireAll (log.take d) (s.setRtu { s.rtu with fireLog := log.drop (d + 1), matcher := .matching })).setPfm
    (some { entry := e, record := r, doneAt := s.expiryIn (formingTicks written) })

/-- A stray record: counted, and the matcher enters HUNT (R59). -/
def strayRecord (s : State) : State :=
  s.setRtu { s.rtu with matcher := .hunt, strayRecords := satInc 65535 s.rtu.strayRecords }

/-- The place of the first entry whose low byte is the record's (R59). -/
def Rtu.entryFor (u : Rtu) (low : Byte) : Option Nat := u.fireLog.findIdx? fun e => e.seq.setWidth 8 == low

/-- A record in MATCHING (R59, R60). -/
def takeMatching (r : ReturnRecord) (s : State) : State :=
  match s.rtu.entryFor r.seqLow with
  | some d =>
    match s.rtu.fireLog[d]? with
    | some e =>
      match r.fullSeq with
      | some full => if full = e.seq then matchAt d e r s else strayRecord s
      | none => matchAt d e r s
    | none => strayRecord s
  | none => strayRecord s

/-- All entries are retired LOST (R61). -/
def retireLog (s : State) : State := retireAll s.rtu.fireLog (s.setRtu { s.rtu with fireLog := [] })

/-- A record in HUNT (R61). -/
def takeHunt (r : ReturnRecord) (s : State) : State :=
  match r.fullSeq, s.rtu.fireLog with
  | some full, h :: _ =>
    let d := (full - h.seq).toNat
    match s.rtu.fireLog[d]? with
    | some e => matchAt d e r s
    | none => if d < 32768 then retireLog s else s
  | _, _ => s

/-- A record taken from the holding slot is handled by the matcher's state; a STOPPED slot may be sealed with it (R58, R37). -/
def handleRecord (r : ReturnRecord) (s : State) : State :=
  sealDrained (match s.rtu.matcher with
    | .matching => takeMatching r s
    | .hunt => takeHunt r s)

/-- The matcher takes the record in the holding slot when there is one and the Point Former is free (R58). -/
def matcherPoll (s : State) : State :=
  match s.rtu.holding, s.pfm with
  | some r, none => handleRecord r (s.setRtu { s.rtu with holding := none })
  | _, _ => s

/-! ### The events -/

/-- A completed record passes the check (R56). -/
def recordPasses (r : WireRecord) : Bool :=
  r.checkAgrees && decide (r.echoCount.toNat ≤ 4) && r.echoes.length == r.echoCount.toNat
    && (r.seqLow == 0) == r.seqHigh.isSome

/-- The return port is read: not while the part loads (R182). -/
def Phase.portOpen : Phase → Bool
  | .running => true
  | .resetWait => true
  | _ => false

/-- A checked record enters an empty holding slot, and the matcher takes it if it can; at an occupied one it is discarded and
counted (R57). -/
def offerRecord (r : ReturnRecord) (s : State) : State :=
  match s.rtu.holding with
  | none => matcherPoll (s.setRtu { s.rtu with holding := some r })
  | some _ => s.setRtu { s.rtu with rxOverrun := satInc 65535 s.rtu.rxOverrun }

/-- A return record completes at the port (R56): the rest of one partly assembled at enabling is discarded without counting;
one that fails the check is discarded and counted. -/
def returnRecordComplete (r : WireRecord) (s : State) : State :=
  if s.phase.portOpen then
    if s.rtu.discardNext then s.setRtu { s.rtu with discardNext := false }
    else if recordPasses r then offerRecord { seqLow := r.seqLow, seqHigh := r.seqHigh, echoes := r.echoes } s
    else s.setRtu { s.rtu with rxRecordError := satInc 65535 s.rtu.rxRecordError }
  else s

/-- The return timeout of an entry, in ticks (R54). -/
abbrev returnTicks : Nat := 8000

/-- The head entry reaches its return timeout and is retired LOST (R54). -/
def returnTimeout (s : State) : State :=
  match s.rtu.fireLog with
  | e :: rest =>
    if ticksAfter e.tick returnTicks = s.now then
      matcherPoll (sealDrained (retireLost (s.setRtu { s.rtu with fireLog := rest }) e))
    else s
  | [] => s

/-- The Point Former has formed its point: it hands it over, and the matcher takes a waiting record (R67, R58). -/
def pointHandover (s : State) : State :=
  match s.pfm with
  | some work => if work.doneAt = s.now then matcherPoll (handOver s) else s
  | none => s

end Sys2Proof.Machine
end

