-- ==== Sys2Proof/Machine/Sweep.lean ====
section
/-! DEFINITION. The Scan Control Unit: SWEEP_START (R6, R7), SWEEP_ABORT (R16), GAPS_GET (R25), preparation (R8), interruption
(R13 to R15), run-up (R9), line opportunities (R10, R12), and the index pulse (R36, R73). -/

namespace Sys2Proof.Machine

/-! ### Interruption -/

/-- The FILLING slot stops firing and is sealed at once if it has no entry in the fire log (R14 step 2, R37); the Point
Former that hands over at that seal frees the matcher (R58). -/
def stopFilling (s : State) : State :=
  match s.las.filling with
  | some i =>
    let s1 := s.setSlot i { s.las.slots[i] with mode := .stopped }
    if ∀ e ∈ s.rtu.fireLog, e.slot ≠ i then sealLine i false s1 else s1
  | none => s

/-- The index from which an interruption leaves the schedule unmeasured: the FILLING line's, else k (R14 step 3). -/
def State.firstNotMeasured (s : State) : Nat :=
  match s.las.filling with
  | some i => s.las.slots[i].lineIndex
  | none => s.scu.k

/-- Add the span of an interruption, from line `j` to the end of the schedule, if it is not empty (R14 step 3). -/
def Scu.addSpan (c : Scu) (j : Nat) : Scu :=
  if c.lines ≤ j then c else c.addInterval (c.lineOffset j) ((c.lines - j) * c.profile.azStep)

/-- An interruption is taken (R14). -/
def takeInterruption (cause : SweepCause) (s : State) : State :=
  let s1 := stopFilling (s.setScu { s.scu with endCause := cause })
  matcherPoll (testClosing (s1.setScu { s1.scu.addSpan s.firstNotMeasured with
    prepareTimer := none, state := .closing }))

/-- An interruption event reaches the Scan Control Unit (R13, R15). -/
def interrupt (cause : SweepCause) (s : State) : State :=
  match s.scu.state with
  | .idle => s
  | .closing => if s.scu.endCause = .none then takeInterruption cause s else s
  | .preparing | .runup | .scanning => takeInterruption cause s

/-! ### The commands -/

/-- The number of lines of a schedule: ceil(Λ / S) (R5). -/
def lineCount (length step : Nat) : Nat := (length + step - 1) / step

/-- What SWEEP_START asks for, its fields in range (R6). -/
structure SweepRequest where
  sweepId : Serial
  kind    : SweepKind
  profile : Profile
  a0      : HeadCount
  length  : Nat
  deriving DecidableEq, Repr

/-- The kind of a sweep (R167). -/
def sweepKindOf : Nat → Option SweepKind
  | 0 => some .full | 1 => some .patch | _ => none

/-- The RANGE checks of SWEEP_START (R6). -/
def sweepRequest (w : Pages) (sweepId : Half) (kind bank : Byte) (a0 length : BitVec 24) : Option SweepRequest :=
  match sweepKindOf kind.toNat, w.banks[bank.toNat]? with
  | some k, some p =>
    if 1 ≤ sweepId.toNat ∧ a0.toNat < headTurn ∧ 1 ≤ length.toNat ∧ length.toNat + p.azStep ≤ headTurn then
      some { sweepId := sweepId, kind := k, profile := p, a0 := a0.setWidth 20, length := length.toNat }
    else none
  | _, _ => none

/-- The STATE checks of SWEEP_START hold (R6). -/
def State.sweepAllowed (s : State) (speed : Fin 4) : Bool :=
  s.scu.state == .idle && s.phu.state == .idle && s.hdu.owner == .none && s.mdu.owner == .none
    && s.hdu.state != .fault && s.mdu.state.coarseLock && s.mdu.setSpeed == speed

/-- The gap list as a SWEEP_START leaves it: emptied by a FULL one (R7 step 3). -/
def GapList.atStart (g : GapList) (q : SweepRequest) : GapList :=
  match q.kind with
  | .full => { entries := [], reference := q.a0, overflow := false, lastChanger := q.sweepId }
  | .patch => g

/-- The Scan Control Unit as SWEEP_START fills it (R4, R7). -/
def Scu.start (c : Scu) (q : SweepRequest) (now prepareEnd : Tick) : Scu :=
  { state := .preparing, sweepId := q.sweepId, kind := q.kind, profile := q.profile, a0 := q.a0,
    lines := lineCount q.length q.profile.azStep, k := 0, clean := 0, flagged := 0, lostNoLock := 0, lostNoSlot := 0,
    result := .none, endCause := .none, startTick := now, endTick := c.endTick, prepareTimer := some prepareEnd,
    gaps := c.gaps.atStart q }

/-- The head target of a sweep's slew: eight steps before the first line (R7 step 5). -/
def SweepRequest.slewTarget (q : SweepRequest) : HeadCount := q.a0 - BitVec.ofNat 20 (8 * q.profile.azStep)

/-- SWEEP_START is taken (R7). -/
def startSweep (q : SweepRequest) (s : State) : State × List Told :=
  let s1 := s.setScu (s.scu.start q s.now (s.expiryIn 1200000000))
  let s2 := s1.setHdu { s1.hdu with owner := .sweep }
  slewTo q.slewTarget (s2.setMdu { s2.mdu with owner := .sweep })

/-- SWEEP_START (R6): the checks RANGE, STATE, INTERLOCK; the reply carries the sweep id and N. -/
def cmdSweepStart (sweepId : Half) (kind bank : Byte) (a0 length : BitVec 24) (s : State) : CmdResult :=
  match sweepRequest s.cal.working sweepId kind bank a0 length with
  | none => refuse s .range
  | some q =>
    if s.sweepAllowed q.profile.speed then
      if s.gateOpen then
        okWith (startSweep q s).1 (le 2 q.sweepId.toNat ++ le 3 (lineCount q.length q.profile.azStep)) (startSweep q s).2
      else refuse s .interlock
    else refuse s .state

/-- SWEEP_ABORT (R16). -/
def cmdSweepAbort (s : State) : CmdResult :=
  match s.scu.state with
  | .idle => refuse s .state
  | .preparing | .runup | .scanning | .closing => okWith (interrupt .hostAbort s) []

/-- An entry of GAPS_GET's reply (R25). -/
def Gap.bytes (g : Gap) : List Byte := le 3 g.offset ++ le 3 g.length

/-- GAPS_GET (R25). -/
def cmdGapsGet (s : State) : CmdResult :=
  let g := s.scu.gaps
  okWith s (le 3 g.reference.toNat ++ flag g.overflow ++ le 2 g.lastChanger.toNat ++ byte g.entries.length
    ++ g.entries.flatMap Gap.bytes)

/-! ### Preparation -/

/-- The head rate of a sweep, in half head counts a second: S × R (R8). -/
def Profile.headRate (p : Profile) : Nat := p.azStep * doubleRevs p.speed

/-- The test for the run-up, at the head's IDLE and at the mirror's FINE (R8). -/
def runupTest (s : State) : State :=
  if s.scu.state = .preparing ∧ s.hdu.state = .idle ∧ s.mdu.state = .fine then
    let s1 := rateRequest s.scu.profile.headRate (s.setScu { s.scu with prepareTimer := none })
    s1.setScu { s1.scu with state := .runup }
  else s

/-- The prepare timer runs out in PREPARING (R8, R14). -/
def prepareTimeout (s : State) : State :=
  if s.scu.state = .preparing ∧ s.due s.scu.prepareTimer then interrupt .prepareTimeout s else s

/-! ### Line opportunities -/

/-- Line k is lost with cause NO_LOCK (R10, R23). -/
def Scu.loseNoLock (c : Scu) : Scu :=
  { c with lostNoLock := satInc c.lines c.lostNoLock }.addInterval (c.lineOffset c.k) c.profile.azStep

/-- Line k is lost with cause NO_SLOT (R10, R23). -/
def Scu.loseNoSlot (c : Scu) : Scu :=
  { c with lostNoSlot := satInc c.lines c.lostNoSlot }.addInterval (c.lineOffset c.k) c.profile.azStep

/-- k increments; at N the Scan Control Unit enters CLOSING with end cause NONE (R10, R12, R17). -/
def nextLine (s : State) : State :=
  let c := { s.scu with k := s.scu.k + 1 }
  if c.lines ≤ c.k then testClosing (s.setScu { c with state := .closing }) else s.setScu c

/-- The opportunity of line k is decided (R10, R27). -/
def decideLine (s : State) : State :=
  if s.gateOpen then
    nextLine
      (if s.mdu.state ≠ .fine then s.setScu s.scu.loseNoLock
       else if s.las.slots[s.las.position].state = .free then openLine s
       else s.setScu s.scu.loseNoSlot)
  else s

/-- The head has passed a0 (R9). -/
def State.headPassed (s : State) : Bool := decide ((s.pins.headCount - s.scu.a0).toNat < 524288)

/-- The Scan Control Unit at an index pulse that found it in `before` (R8, R9, R10, R12); `fineEntered`: the mirror has
entered FINE at this pulse, at which a PREPARING sweep is tested (R8, log 15). -/
def scuPulse (before : SweepState) (fineEntered : Bool) (s : State) : State :=
  match before with
  | .preparing => if fineEntered then runupTest s else s
  | .runup => if s.headPassed then decideLine (s.setScu { s.scu with state := .scanning }) else s
  | .scanning => decideLine s
  | .idle | .closing => s

/-- The FILLING slot is sealed at the index pulse after its opening, and the seal is reported (R36, R37, R17). -/
def sealAtPulse (fineFailed : Bool) (s : State) : State :=
  match s.las.filling with
  | some i => matcherPoll (testClosing (sealLine i fineFailed s))
  | none => s

/-- The index pulse at the counts that stand (R73): comparison, seal, decision, in this order (1.5); what the lock detector has
to tell comes after (log 14). -/
def indexPulse (s : State) : State × List Told :=
  let r := lockDetect s
  let s1 := sealAtPulse (s.mdu.fineFailed s.now) r.1
  (scuPulse s.scu.state (s.mdu.state != .fine && s1.mdu.state == .fine) s1, r.2)

end Sys2Proof.Machine
end

