-- ==== Sys2Proof/Machine/Photo.lean ====
section
/-! DEFINITION. The Photo Unit: station table (R138 to R140), photo runs (R142, R143, R155 to R158), positioning (R144 to
R146), exposure and readout (R147 to R149), and the drain of a frame (R153). -/

namespace Sys2Proof.Machine

/-! ### The station table -/

/-- An exposure of STATION_SET within its ranges (R138). -/
def exposureOf (e : BitVec 24 × Byte) : Option Exposure :=
  if 10 ≤ e.1.toNat ∧ e.1.toNat ≤ 500000 ∧ e.2.toNat ≤ 7 then some { time := e.1.toNat, gain := e.2.toNat } else none

/-- The entry that STATION_SET's fields spell, if every field lies in its range (R138). -/
def stationOf (azimuth : BitVec 24) (elevation : Half) (count : Byte) (exposures : List (BitVec 24 × Byte)) :
    Option Station :=
  match exposures.mapM exposureOf with
  | some es =>
    if azimuth.toNat < headTurn ∧ elevation.toNat < mirrorTurn ∧ 1 ≤ count.toNat ∧ count.toNat ≤ 3 then
      some { state := .planned, azimuth := azimuth.setWidth 20, elevation := elevation.setWidth 14, exposures := es }
    else none
  | none => none

/-- An entry of the table becomes `x`. -/
def Phu.setStation (p : Phu) (i : Fin 32) (x : Station) : Phu := { p with stations := p.stations.set i.val x i.isLt }

/-- STATION_SET (R138): the checks RANGE, STATE; the reply carries the station and the state its entry held. -/
def cmdStationSet (station : Byte) (azimuth : BitVec 24) (elevation : Half) (count : Byte)
    (exposures : List (BitVec 24 × Byte)) (s : State) : CmdResult :=
  if h : station.toNat < 32 then
    match stationOf azimuth elevation count exposures with
    | some x =>
      if s.phu.state = .idle then
        okWith (s.setPhu (s.phu.setStation ⟨station.toNat, h⟩ x))
          (byte station.toNat ++ byte (s.phu.stations[station.toNat]).state.ctorIdx)
      else refuse s .state
    | none => refuse s .range
  else refuse s .range

/-- STATION_CLEAR (R139): the reply carries the state the entry held. -/
def cmdStationClear (station : Byte) (s : State) : CmdResult :=
  if h : station.toNat < 32 then
    if s.phu.state = .idle then
      okWith (s.setPhu (s.phu.setStation ⟨station.toNat, h⟩ Station.empty))
        (byte (s.phu.stations[station.toNat]).state.ctorIdx)
    else refuse s .state
  else refuse s .range

/-- An exposure on the link (R167). -/
def Exposure.bytes (e : Exposure) : List Byte := le 3 e.time ++ byte e.gain

/-- An entry on the link; the fields of an EMPTY one are absent (R140, R167, log 29). -/
def Station.bytes (x : Station) : List Byte :=
  byte x.state.ctorIdx ++
    if x.state = .empty then absent 3 ++ absent 2 ++ absent 1
    else le 3 x.azimuth.toNat ++ le 2 x.elevation.toNat ++ byte x.exposures.length
      ++ x.exposures.flatMap Exposure.bytes

/-- STATION_GET (R140). -/
def cmdStationGet (station : Byte) (s : State) : CmdResult :=
  match s.phu.stations[station.toNat]? with
  | some x => okWith s x.bytes
  | none => refuse s .range

/-! ### Exposures -/

/-- The image sensor's drive (R148): stopped; exposing with an exposure's time in µs and its gain; or transferring its image. -/
inductive SensorDrive where
  | stopped
  | exposing (time gain : Nat)
  | transferring
  deriving DecidableEq, Repr

/-- The drive of the image sensor: started at the exposure's start with its time and gain, transferring in READOUT (R148),
stopped at the end of the readout, at an early end (R156 step 2) and at a reset (R159 step 3). -/
def State.sensorDrive (s : State) : SensorDrive :=
  if s.phase.up then
    match s.phu.state, s.phu.slotInUse with
    | .exposing, some i => .exposing s.phu.slots[i].time s.phu.slots[i].gain
    | .readout, some _ => .transferring
    | _, _ => .stopped
  else .stopped

/-- The current station of a run: the entry of the run list at the list position (R141). -/
def Phu.current (p : Phu) : Option (Fin 32) := p.runList[p.position]?

/-- The slot of an exposure at its start (R148, R150). -/
def FrameSlot.start (st : Fin 32) (index : Nat) (serial : Serial) (e : Exposure) (now : Tick) (fallback : Bool) :
    FrameSlot :=
  { state := .exposing, station := st, exposure := index, serial := serial, headAzimuth := none, mirrorCount := none,
    time := e.time, gain := e.gain, startTick := now, fallback := fallback, image := [], framesSent := 0 }

/-- The exposure the run has come to starts in frame slot `i` (R148); FRAMES_FULL rises when the last FREE slot is taken. -/
def startExposure (i : Fin 2) (s : State) : State :=
  match s.phu.current with
  | none => s
  | some st =>
    match s.phu.stations[st].exposures[s.phu.exposure]? with
    | none => s
    | some e =>
      let f := FrameSlot.start st s.phu.exposure s.phu.nextSerial e s.now (s.tbu.source == .fallback)
      let p := { s.phu.setFrame i f with
        state := .exposing, slotInUse := some i, phaseEnd := some (s.expiryIn (e.time * 40)),
        nextSerial := s.phu.nextSerial + 1 }
      reportChange .framesFull s.phu.freeFrame.isNone p.freeFrame.isNone (s.setPhu p)

/-- An exposure begins: in the lowest FREE slot, or the run waits for one (R147). -/
def beginExposure (s : State) : State :=
  match s.phu.freeFrame with
  | some i => startExposure i s
  | none => s.setPhu { s.phu with state := .waitFrame }

/-! ### Positioning -/

/-- Ticks of the positioning timeout, 10 s (R144). -/
abbrev positioningTicks : Nat := 400000000

/-- The positioning of the current station begins (R144). -/
def beginPositioning (s : State) : State × List Told :=
  match s.phu.current with
  | none => (s, [])
  | some st =>
    let r1 := slewTo (cameraAzimuth s.cal.working s.phu.stations[st].azimuth) s
    let r2 := parkTo (cameraElevation s.cal.working s.phu.stations[st].elevation) r1.1
    (r2.1.setPhu { r2.1.phu with
        positioningEnd := some (s.expiryIn positioningTicks), exposure := 0, serials := [], state := .positioning },
      r1.2 ++ r2.2)

/-- The test of a positioned station, at the head's IDLE and at the mirror's PARKED (R145). -/
def positionedTest (s : State) : State :=
  if s.phu.state = .positioning ∧ s.hdu.state = .idle ∧ s.mdu.state = .parked then
    beginExposure (s.setPhu { s.phu with positioningEnd := none })
  else s

/-! ### The end of a station and of a run -/

/-- Head and mirror are released by the run (R155, R156). -/
def releasePhoto (s : State) : State :=
  let s1 := if s.hdu.owner = .photo then s.setHdu { s.hdu with owner := .none } else s
  s1.setMdu { s1.mdu with owner := .none }

/-- The run ends: owners released, the run record at its end, PHOTO_RUN_END appended (R155, R156). -/
def endRun (result : RunResult) (cause : RunCause) (discarded : Bool) (s : State) : State :=
  let s1 := releasePhoto s
  let p := { s1.phu with
    state := .idle, slotInUse := none, positioningEnd := none, phaseEnd := none, result := result, endCause := cause }
  appendTile (.runEnd { result := result, endCause := cause, stations := p.runList.length, done := p.done,
                        missed := p.missed, exposures := p.readOut, discarded := discarded, tick := s.now })
    (s1.setPhu p)

/-- The run record when station `st` has ended, DONE or MISSED (R146, R149). -/
def Phu.stationEnded (p : Phu) (st : Fin 32) (missed : Bool) : Phu :=
  if missed then { p.setStation st { p.stations[st] with state := .missed } with missed := p.missed + 1 }
  else { p.setStation st { p.stations[st] with state := .done } with done := p.done + 1 }

/-- The current station ends: its entry, its count, its STATION_DONE, and the next station or the end of the run (R146, R149,
R155). -/
def stationEnds (missed : Bool) (s : State) : State × List Told :=
  match s.phu.current with
  | none => (s, [])
  | some st =>
    let s1 := appendTile
      (.stationDone { station := st, missed := missed, serials := if missed then [] else s.phu.serials, tick := s.now })
      (s.setPhu (s.phu.stationEnded st missed))
    if s.phu.position + 1 < s.phu.runList.length then
      beginPositioning (s1.setPhu { s1.phu with position := s.phu.position + 1 })
    else (endRun .complete .none false s1, [])

/-- The run holds an exposure that an early end discards (R156). -/
def Phu.exposureHeld (p : Phu) : Option (Fin 2) :=
  match p.state with
  | .exposing | .readout => p.slotInUse
  | .idle | .positioning | .waitFrame => none

/-- The slot in use is discarded to FREE, and FRAMES_FULL falls if it was true (R156). -/
def discardExposure (s : State) : State :=
  match s.phu.exposureHeld with
  | some i =>
    let p := s.phu.setFrame i FrameSlot.free
    reportChange .framesFull s.phu.freeFrame.isNone p.freeFrame.isNone (s.setPhu p)
  | none => s

/-- The run ends early (R156). -/
def earlyEnd (result : RunResult) (cause : RunCause) (s : State) : State :=
  endRun result cause s.phu.exposureHeld.isSome (discardExposure s)

/-- A head fault or a mirror stall reaches the run (R158). -/
def runInterrupted (cause : RunCause) (s : State) : State :=
  match s.phu.state with
  | .idle => s
  | .positioning | .exposing | .waitFrame | .readout => earlyEnd .interrupted cause s

/-! ### The commands of a run -/

/-- All station indices in ascending order. -/
def allStations : List (Fin 32) := List.finRange 32

/-- The PLANNED entries in ascending index (R143). -/
def Phu.planned (p : Phu) : List (Fin 32) := allStations.filter fun i => p.stations[i].state == .planned

/-- The TILE source holds a PHOTO_RUN_END (R142). -/
def Phu.runEndWaits (p : Phu) : Bool :=
  p.source.any fun x => match x with
    | .runEnd _ => true
    | _ => false

/-- The STATE checks of PHOTO_RUN_START hold (R142). -/
def State.runAllowed (s : State) : Bool :=
  s.scu.state == .idle && s.phu.state == .idle && s.lec.state != .leased && s.hdu.owner == .none
    && s.hdu.state != .fault && s.mdu.owner == .none && s.mdu.state != .stalled && !s.phu.runEndWaits

/-- The run record at the start of a run over `stations` (R143). -/
def Phu.startRun (p : Phu) (stations : List (Fin 32)) : Phu :=
  { p with
    runList := stations, position := 0, exposure := 0, done := 0, missed := 0, readOut := 0, result := .none,
    endCause := .none }

/-- PHOTO_RUN_START is taken (R143). -/
def startRun (stations : List (Fin 32)) (s : State) : State × List Told :=
  let s1 := s.setPhu (s.phu.startRun stations)
  let s2 := s1.setHdu { s1.hdu with owner := .photo }
  beginPositioning (s2.setMdu { s2.mdu with owner := .photo })

/-- PHOTO_RUN_START (R142): the reply carries the number of stations and the first one's index. -/
def cmdPhotoRunStart (s : State) : CmdResult :=
  match s.phu.planned with
  | first :: rest =>
    if s.runAllowed then
      okWith (startRun (first :: rest) s).1 (byte (first :: rest).length ++ byte first.val)
        (startRun (first :: rest) s).2
    else refuse s .state
  | [] => refuse s .state

/-- PHOTO_RUN_ABORT (R157): the reply carries the run state at the command and whether an exposure was discarded. -/
def cmdPhotoRunAbort (s : State) : CmdResult :=
  match s.phu.state with
  | .idle => refuse s .state
  | .positioning | .exposing | .waitFrame | .readout =>
    okWith (earlyEnd .aborted .hostAbort s) (byte s.phu.state.ctorIdx ++ flag s.phu.exposureHeld.isSome)

/-! ### The events of a run -/

/-- The positioning end is reached in POSITIONING: the station is MISSED (R146). -/
def positioningTimeout (s : State) : State × List Told :=
  if s.phu.state = .positioning ∧ s.due s.phu.positioningEnd then
    stationEnds true (s.setPhu { s.phu with positioningEnd := none })
  else (s, [])

/-- The tick of the mid-exposure sample (R148). -/
def FrameSlot.middle (f : FrameSlot) : Tick := ticksAfter f.startTick (f.time * 20)

/-- The slot whose mid-exposure sample is due (R148). -/
def State.sampleDue (s : State) : Option (Fin 2) :=
  match s.phu.state, s.phu.slotInUse with
  | .exposing, some i =>
    if s.phu.slots[i].headAzimuth = none ∧ s.phu.slots[i].middle = s.now then some i else none
  | _, _ => none

/-- The middle of the exposure: both counts are sampled into the photo header (R148, R150). -/
def midExposureSample (s : State) : State :=
  match s.sampleDue with
  | some i =>
    s.setFrame i { s.phu.slots[i] with headAzimuth := some s.pins.headCount, mirrorCount := some s.pins.mirrorCount }
  | none => s

/-- Ticks of a readout, 40 ms (R148). -/
abbrev readoutTicks : Nat := 1600000

/-- The phase end is reached in EXPOSING: the slot goes to READOUT (R148). -/
def exposureEnd (s : State) : State :=
  match s.phu.state, s.phu.slotInUse with
  | .exposing, some i =>
    if s.due s.phu.phaseEnd then
      s.setPhu { s.phu.setFrame i { s.phu.slots[i] with state := .readout } with
        state := .readout, phaseEnd := some (s.expiryIn readoutTicks) }
    else s
  | _, _ => s

/-- The station has an exposure after the current one (R149). -/
def Phu.moreExposures (p : Phu) : Bool :=
  match p.current with
  | some st => decide (p.exposure + 1 < p.stations[st].exposures.length)
  | none => false

/-- The frame in slot `i` is complete with its image: READY, appended to the TILE source (R149 steps 1 and 2). -/
def frameReady (i : Fin 2) (image : PixelList) (s : State) : State :=
  appendTile (.frame i) (s.setPhu
    { s.phu.setFrame i { s.phu.slots[i] with state := .ready, image := canonicalImage image } with
      slotInUse := none, phaseEnd := none, readOut := s.phu.readOut + 1,
      serials := s.phu.serials ++ [s.phu.slots[i].serial] })

/-- The run goes on after a readout: the station's next exposure, or the end of the station (R149 step 3). -/
def afterReadout (s : State) : State × List Told :=
  if s.phu.moreExposures then (beginExposure (s.setPhu { s.phu with exposure := s.phu.exposure + 1 }), [])
  else stationEnds false s

/-- The phase end is reached in READOUT (R149). -/
def readoutEnd (image : PixelList) (s : State) : State × List Told :=
  match s.phu.state, s.phu.slotInUse with
  | .readout, some i => if s.due s.phu.phaseEnd then afterReadout (frameReady i image s) else (s, [])
  | _, _ => (s, [])

/-! ### The drain -/

/-- A frame of the slot at the head of the TILE source has been sent. After tile 1,535 the slot becomes FREE, FRAMES_FULL
falls, and a waiting exposure starts in it (R153). -/
def framePartSent (i : Fin 2) (s : State) : State :=
  let f := s.phu.slots[i]
  if 1537 ≤ f.framesSent + 1 then
    let p := { s.phu.setFrame i FrameSlot.free with source := s.phu.source.tail }
    let s1 := reportChange .framesFull s.phu.freeFrame.isNone p.freeFrame.isNone (s.setPhu p)
    if s1.phu.state = .waitFrame then startExposure i s1 else s1
  else s.setFrame i { f with framesSent := f.framesSent + 1 }

end Sys2Proof.Machine
end

