-- ==== Sys2Proof/Machine/Timebase.lean ====
section
/-! DEFINITION. The Timebase Unit: loss and return of the reference (R178) and TIMEBASE_RESTORE (R179). -/

namespace Sys2Proof.Machine

/-- A FILLING line is marked TIMEBASE_FALLBACK (R32). -/
def markLine (s : State) : State :=
  match s.las.filling with
  | some i => s.setSlot i { s.las.slots[i] with timebaseFallback := true }
  | none => s

/-- A frame slot that is EXPOSING or in READOUT is marked TIMEBASE_FALLBACK (R150). -/
def markPhoto (s : State) : State :=
  match s.phu.exposureHeld with
  | some i => s.setFrame i { s.phu.slots[i] with fallback := true }
  | none => s

/-- The reference is lost: in EXTERNAL the source switches to FALLBACK (R178). While the part loads the switch is handed to
no other block. -/
def referenceLoss (s : State) : State :=
  if s.tbu.referencePresent then
    match s.tbu.source with
    | .fallback => s.setTbu { s.tbu with referencePresent := false }
    | .external =>
      let s1 := s.setTbu { s.tbu with referencePresent := false, source := .fallback }
      if s.phase = .loading then s1
      else markPhoto (markLine (mirrorSwitch (reportEdge .timebaseExternal false s1)))
  else s

/-- The reference has returned: only reference present changes (R178). -/
def referenceReturn (s : State) : State := s.setTbu { s.tbu with referencePresent := true }

/-- TIMEBASE_RESTORE (R179): the reply carries the source state before and after, a refusal too (log 18). -/
def cmdTimebaseRestore (s : State) : CmdResult :=
  match s.tbu.source, s.tbu.referencePresent with
  | .fallback, true =>
    okWith (mirrorSwitch (reportEdge .timebaseExternal true (s.setTbu { s.tbu with source := .external })))
      (byte TimeSource.fallback.ctorIdx ++ byte TimeSource.external.ctorIdx)
  | .fallback, false => refuse s .state (byte TimeSource.fallback.ctorIdx ++ byte TimeSource.fallback.ctorIdx)
  | .external, _ => okWith s (byte TimeSource.external.ctorIdx ++ byte TimeSource.external.ctorIdx)

end Sys2Proof.Machine
end

