-- ==== Sys2Proof/Machine/Status.lean ====
section
/-! DEFINITION. STATUS_QUERY (R176): the eleven groups of its reply in the order of R176, each the list of its own chapter
encoded by R167; where the rules leave a group's layout open it is that of log 17. -/

namespace Sys2Proof.Machine

/-- A field that stands under a condition: its value, or all ones (R167). -/
def under (holds : Bool) (n v : Nat) : List Byte := if holds then le n v else absent n

/-- Group 1 (R180). -/
def statusTimebase (s : State) : List Byte :=
  tickBytes s.now ++ byte s.tbu.source.ctorIdx ++ flag s.tbu.referencePresent

/-- Group 2 (R4). -/
def statusSweep (c : Scu) : List Byte :=
  byte c.state.ctorIdx ++ le 2 c.sweepId.toNat ++ le 3 c.k ++ le 3 c.lines ++ byte c.kind.ctorIdx ++ le 3 c.clean
    ++ le 3 c.flagged ++ le 3 c.lostNoLock ++ le 3 c.lostNoSlot ++ byte c.result.ctorIdx ++ byte c.endCause.ctorIdx

/-- Sweep id and line index of a slot that is not FREE (R45). -/
def statusSlot (sl : LineSlot) : List Byte :=
  under (sl.state != .free) 2 sl.sweepId.toNat ++ under (sl.state != .free) 3 sl.lineIndex

/-- Chunks already sent of the DRAINING slot (R45). -/
def Las.chunksSent (l : Las) : Option Nat :=
  ((allSlots.map fun i => l.slots[i]).find? fun sl => sl.state == .draining).map LineSlot.chunksSent

/-- Group 3 (R45). -/
def statusRing (l : Las) : List Byte :=
  (allSlots.flatMap fun i => byte l.slots[i].state.ctorIdx) ++ (allSlots.flatMap fun i => statusSlot l.slots[i])
    ++ byte l.position.val ++ leOpt 1 l.chunksSent

/-- Group 4 (R69). -/
def statusReturn (s : State) : List Byte :=
  byte s.rtu.fireLog.length ++ leOpt 2 (s.rtu.fireLog.head?.map fun e => e.seq.toNat) ++ le 2 s.rtu.nextSeq.toNat
    ++ byte s.rtu.matcher.ctorIdx ++ flag s.rtu.holding.isSome ++ flag s.pfm.isSome ++ le 2 s.rtu.rxRecordError
    ++ le 2 s.rtu.rxOverrun ++ le 2 s.rtu.strayRecords

/-- Group 5 (R87). -/
def statusMirror (s : State) : List Byte :=
  byte s.mdu.state.ctorIdx ++ byte s.mdu.setSpeed.val ++ byte s.mdu.owner.ctorIdx ++ byte s.mdu.stallReason.ctorIdx
    ++ byte s.mdu.coarseRun ++ byte s.mdu.fineRun ++ le 4 s.mdu.lastPeriod ++ le 2 s.mdu.parkTarget.toNat
    ++ le 2 s.pins.mirrorCount.toNat

/-- The current following error, in SWEEPING (R104, R167). -/
def statusFollowing (s : State) : List Byte :=
  if s.hdu.state = .sweeping then leInt 3 (followingWhole s.followingNow) else absent 3

/-- Group 6 (R104). -/
def statusHead (s : State) : List Byte :=
  byte s.hdu.state.ctorIdx ++ byte s.hdu.owner.ctorIdx ++ byte s.hdu.faultReason.ctorIdx ++ le 3 s.hdu.target.toNat
    ++ byte s.hdu.direction.ctorIdx ++ le 3 s.pins.headCount.toNat ++ le 3 s.hdu.rate ++ statusFollowing s
    ++ flag s.hdu.settleTimer.isSome

/-- The remaining lease time (R118). -/
def State.leaseRemaining (s : State) : Nat :=
  match s.lec.state, s.lec.expiry with
  | .leased, some t => ticksFrom s.now t
  | _, _ => 0

/-- Group 7 (R118). -/
def statusLaser (s : State) : List Byte :=
  byte s.lec.state.ctorIdx ++ flag s.lec.ilkHigh ++ flag s.lec.satisfied ++ byte s.lec.duration
    ++ le 4 s.leaseRemaining ++ byte s.lec.lastEnd.ctorIdx

/-- The outcome of page `p` in a commit: OK 0, VERIFY_FAIL 1, absent when the page was not selected (R136, log 17). -/
def outcomeByte (outcomes : List PageOutcome) (p : Fin 5) : List Byte :=
  leOpt 1 ((outcomes.find? fun o => o.1 == p).map fun o => if o.2 then 0 else 1)

/-- The last commit, or none (R136). -/
def statusCommit : Option (PageMask × List PageOutcome) → List Byte
  | some r => byte r.1.toNat ++ allPages.flatMap (outcomeByte r.2)
  | none => absent 6

/-- Group 8 (R136). -/
def statusStore (c : Cal) : List Byte :=
  byte c.state.ctorIdx ++ under (c.state == .writing) 1 c.commitMask.toNat
    ++ (if c.state = .writing then leOpt 1 (c.page.map Fin.val) else absent 1) ++ byte c.unsaved.toNat
    ++ byte c.defaulted.toNat ++ statusCommit c.lastCommit

/-- Station, exposure index and serial of a frame slot that is not FREE (R160). -/
def statusFrame (f : FrameSlot) : List Byte :=
  under (f.state != .free) 1 f.station.val ++ under (f.state != .free) 1 f.exposure
    ++ under (f.state != .free) 2 f.serial.toNat

/-- Tiles already sent of the DRAINING slot (R160): its frames sent, but for PHOTO_BEGIN. -/
def Phu.tilesSent (p : Phu) : Option Nat :=
  ((([0, 1] : List (Fin 2)).map fun i => p.slots[i]).find? fun f => f.state == .draining).map fun f => f.framesSent - 1

/-- The remaining positioning time while POSITIONING (R160). -/
def State.positioningRemaining (s : State) : Option Nat :=
  match s.phu.state, s.phu.positioningEnd with
  | .positioning, some t => some (ticksFrom s.now t)
  | _, _ => none

/-- Group 9 (R160). -/
def statusPhoto (s : State) : List Byte :=
  byte s.phu.state.ctorIdx ++ byte s.phu.position ++ leOpt 1 (s.phu.current.map Fin.val) ++ byte s.phu.exposure
    ++ byte s.phu.runList.length ++ byte s.phu.done ++ byte s.phu.missed ++ byte s.phu.readOut
    ++ byte s.phu.result.ctorIdx ++ byte s.phu.endCause.ctorIdx
    ++ (([0, 1] : List (Fin 2)).flatMap fun i => byte s.phu.slots[i].state.ctorIdx)
    ++ (([0, 1] : List (Fin 2)).flatMap fun i => statusFrame s.phu.slots[i])
    ++ leOpt 2 s.phu.tilesSent ++ le 2 s.phu.nextSerial.toNat ++ leOpt 4 s.positioningRemaining

/-- Group 10 (R168). -/
def statusLink (l : Lnk) : List Byte :=
  le 2 l.crcErrors ++ le 2 l.overruns ++ byte l.rx.ctorIdx ++ flag l.holding.isSome ++ byte l.replies.length

/-- The source of an item on the lane; READY is no source's (R172). -/
def LaneItem.source : LaneItem → Option Source
  | .ready => none
  | .reply => some .reply
  | .event => some .event
  | .lineChunk _ | .sweepEnd => some .line
  | .framePart _ | .tileReport => some .tile

/-- Group 11 (R176). -/
def statusOutbound (s : State) : List Byte :=
  (allSources.flatMap fun x => byte (s.oba.level x)) ++ (allSources.flatMap fun x => byte (s.items x))
    ++ flag s.oba.lane.isSome
    ++ leOpt 1 ((s.oba.lane.bind fun f => f.item.source).map Source.ctorIdx)
    ++ byte s.evr.queue.length ++ byte s.evr.lost
    ++ (allConditions.flatMap fun c => byte (s.evr.setting c).ctorIdx)
    ++ (allConditions.flatMap fun c => flag (c.level s))

/-- The snapshot (R176). -/
def statusBody (s : State) : List Byte :=
  statusTimebase s ++ statusSweep s.scu ++ statusRing s.las ++ statusReturn s ++ statusMirror s ++ statusHead s
    ++ statusLaser s ++ statusStore s.cal ++ statusPhoto s ++ statusLink s.lnk ++ statusOutbound s

/-- The five error counters become 0 (R176). -/
def clearCounters (s : State) : State :=
  (s.setRtu { s.rtu with rxRecordError := 0, rxOverrun := 0, strayRecords := 0 }).setLnk
    { s.lnk with crcErrors := 0, overruns := 0 }

/-- STATUS_QUERY (R176): a clear field other than 0 or 1 is refused with RANGE; the clearing comes after the snapshot. -/
def cmdStatusQuery (clear : Byte) (s : State) : CmdResult :=
  match yesNo clear with
  | some true => okWith (clearCounters s) (statusBody s)
  | some false => okWith s (statusBody s)
  | none => refuse s .range

end Sys2Proof.Machine
end

