-- ==== Sys2Proof/Machine/Told.lean ====
section
/-! DEFINITION. What blocks are told once an event is complete (R98, R116, R144, log 22), and the events of the mechanism that
reach an owner: the head's IDLE (R93) and the mirror's PARKED (R79). -/

namespace Sys2Proof.Machine

/-- One block is told (R13, R98, R116, R158). -/
def tell (t : Told) (s : State) : State :=
  match t with
  | .leaseEnd cause => interrupt cause s
  | .headFault .sweep => interrupt .headFault s
  | .headFault .photo => runInterrupted .headFault s
  | .headFault .none => s
  | .mirrorStall .photo => runInterrupted .mirrorStall s
  | .mirrorStall .sweep => s
  | .mirrorStall .none => s

/-- The blocks are told in order. -/
def tellAll (r : State × List Told) : State := r.2.foldl (fun s t => tell t s) r.1

/-- The head encoder comes to a count, and a fault of its following error is told to the owner (R93, R96, R98). -/
def headArrives (count : HeadCount) (s : State) : State := tellAll (headMoves count s)

/-- An event brings both encoders' counts: the movements are complete before the event itself (R79, R80, R93, R96, log 6). -/
def countsArrive (mirror : MirrorCount) (head : HeadCount) (s : State) : State := headArrives head (mirrorMoves mirror s)

/-- The head enters IDLE, and its owner tests (R8, R93, R145). -/
def headSettleExpiry (s : State) : State :=
  if s.settleDue then
    match s.hdu.owner with
    | .sweep => runupTest (headSettles s)
    | .photo => positionedTest (headSettles s)
    | .none => headSettles s
  else s

/-- The mirror enters PARKED, and a PHOTO owner tests (R79, R145). -/
def parkSettleExpiry (s : State) : State :=
  if s.parkSettleDue then
    match s.mdu.owner with
    | .photo => positionedTest (mirrorParks s)
    | .sweep | .none => mirrorParks s
  else s

end Sys2Proof.Machine
end

