-- ==== Sys2Proof/Machine/Link.lean ====
section
/-! DEFINITION. The Link Interface: the dispatcher (R163, R164, R166), the receiver (R162), the frame of a host command at the
receiver (log 4), and the end of an outbound frame (R172). -/

namespace Sys2Proof.Machine

/-! ### The dispatcher -/

/-- RESET of length 0: the part enters the reset wait, without a reply (R164, R181). -/
def cmdReset (s : State) : CmdResult := { state := s.setPhase .resetWait, reply := none, told := [] }

/-- A command is executed by the block that owns it (R164). -/
def runHost (c : HostCmd) (s : State) : CmdResult :=
  match c with
  | .statusQuery clear => cmdStatusQuery clear s
  | .reset => cmdReset s
  | .profileSet bank speed pulses windowStart windowEnd azStep echoMode keepEmpty =>
    cmdProfileSet bank speed pulses windowStart windowEnd azStep echoMode keepEmpty s
  | .profileGet bank => cmdProfileGet bank s
  | .sweepStart sweepId kind bank a0 length => cmdSweepStart sweepId kind bank a0 length s
  | .sweepAbort => cmdSweepAbort s
  | .gapsGet => cmdGapsGet s
  | .mirrorSpin speed => cmdMirrorSpin speed s
  | .mirrorPark count => cmdMirrorPark count s
  | .mirrorStop => cmdMirrorStop s
  | .headSlew azimuth => cmdHeadSlew azimuth s
  | .headHold => cmdHeadHold s
  | .headRelease => cmdHeadRelease s
  | .emitRequest duration => cmdEmitRequest duration s
  | .emitRenew token duration => cmdEmitRenew token duration s
  | .emitOff => cmdEmitOff s
  | .calSet page index value => cmdCalSet page index value s
  | .calGet page => cmdCalGet page s
  | .calCommit mask => cmdCalCommit mask s
  | .calRevert mask => cmdCalRevert mask s
  | .stationSet station azimuth elevation count exposures => cmdStationSet station azimuth elevation count exposures s
  | .stationClear station => cmdStationClear station s
  | .stationGet station => cmdStationGet station s
  | .photoRunStart => cmdPhotoRunStart s
  | .photoRunAbort => cmdPhotoRunAbort s
  | .subscribe condition edge => cmdSubscribe condition edge s
  | .prioritySet source level => cmdPrioritySet source level s
  | .timebaseRestore => cmdTimebaseRestore s

/-- The kind of a reply: k + 80h, or FFh for a kind that is no command kind (R166). -/
def replyKind (kind : Byte) : Byte := if knownKind kind then kind + 0x80 else 0xFF

/-- A reply: kind, the command's tag, and the reply head before the body (R164, R166). -/
def replyFrame (kind tag : Byte) (status : Status) (body : List Byte) : Frame :=
  { kind := replyKind kind, tag := tag, payload := status.code :: body }

/-- A command has been executed: its reply is appended (R164), then blocks are told what it has left to tell (log 22). -/
def answer (kind tag : Byte) (r : CmdResult) : State :=
  match r.reply with
  | some (status, body) => tellAll (appendReply (replyFrame kind tag status body) r.state, r.told)
  | none => tellAll (r.state, r.told)

/-- The dispatcher judges a frame, kind first, then length, then the command itself (R164). -/
def takeFrame (f : Frame) (s : State) : State :=
  match judge f with
  | .unknownKind => answer f.kind f.tag (refuse s .unknownKind [f.kind])
  | .badLength => answer f.kind f.tag (refuse s .badLength (le 2 f.payload.length))
  | .command c => answer f.kind f.tag (runHost c s)

/-- The dispatcher takes the held frame when the reply queue has room (R164); in the reset wait and outside running it takes
none (R181, R182). -/
def dispatchHeld (s : State) : State :=
  match s.lnk.holding with
  | some f =>
    if s.phase = .running ∧ s.lnk.replies.length < 4 then takeFrame f (s.setLnk { s.lnk with holding := none }) else s
  | none => s

/-- A good frame is offered to the holding buffer (R163). -/
def offerFrame (f : Frame) (s : State) : State :=
  match s.lnk.holding with
  | none => dispatchHeld (s.setLnk { s.lnk with holding := some f })
  | some _ => s.setLnk { s.lnk with overruns := satInc 65535 s.lnk.overruns }

/-! ### The receiver -/

/-- The receiver returns to HUNT with nothing remembered and an empty assembly buffer (R162). -/
def Lnk.hunting (l : Lnk) : Lnk := { l with rx := .hunt, sawC3 := false, assembly := [] }

/-- A frame is discarded and counted (R162, R168). -/
def discardFrame (s : State) : State :=
  s.setLnk { s.lnk.hunting with crcErrors := satInc 65535 s.lnk.crcErrors }

/-- The length field of an assembled header (R161). -/
def headerLength (assembly : List Byte) : Nat := (assembly.getD 2 0).toNat + 256 * (assembly.getD 3 0).toNat

/-- The frame of an assembly buffer that holds `n` payload bytes. -/
def assembledFrame (assembly : List Byte) (n : Nat) : Frame :=
  { kind := assembly.getD 0 0, tag := assembly.getD 1 0, payload := (assembly.drop 4).take n }

/-- The check of an assembled frame agrees (R161, R162). -/
def checkAgrees (assembly : List Byte) (n : Nat) : Bool :=
  assembly.drop (4 + n) == le 2 (crc16 (assembly.take (4 + n))).toNat

/-- The second check byte is stored: the check is tested (R162). -/
def frameEnds (assembly : List Byte) (s : State) : State :=
  let n := headerLength assembly
  if checkAgrees assembly n then offerFrame (assembledFrame assembly n) (s.setLnk s.lnk.hunting) else discardFrame s

/-- A byte in HUNT (R162). -/
def rxHunt (b : Byte) (s : State) : State :=
  if b = 0xC3 then s.setLnk { s.lnk with sawC3 := true }
  else if b = 0x5A ∧ s.lnk.sawC3 then s.setLnk { s.lnk with rx := .header, sawC3 := false, assembly := [] }
  else s.setLnk { s.lnk with sawC3 := false }

/-- A byte in HEADER (R162). -/
def rxHeader (b : Byte) (s : State) : State :=
  let a := s.lnk.assembly ++ [b]
  if a.length < 4 then s.setLnk { s.lnk with assembly := a }
  else if 4096 < headerLength a then discardFrame s
  else s.setLnk { s.lnk with rx := .payload, assembly := a }

/-- A byte in PAYLOAD (R162). -/
def rxPayload (b : Byte) (s : State) : State :=
  let a := s.lnk.assembly ++ [b]
  if a.length < headerLength a + 6 then s.setLnk { s.lnk with assembly := a } else frameEnds a s

/-- An inbound byte arrives; it is ignored unless the part runs (R162, R181, R182). -/
def rxByte (s : State) (b : Byte) : State :=
  if s.phase = .running then
    match s.lnk.rx with
    | .hunt => rxHunt b s
    | .header => rxHeader b s
    | .payload => rxPayload b s
  else s

/-- Inbound bytes arrive in order. -/
def feed (bytes : List Byte) (s : State) : State := bytes.foldl rxByte s

/-- The bytes of a whole good frame arrive at the receiver (R162, log 4). In HUNT they are the frame, which is offered; in the
middle of another frame they are taken as the rest of that one. -/
def receiveFrame (f : Frame) (s : State) : State :=
  if s.phase = .running ∧ s.lnk.rx = .hunt ∧ f.payload.length ≤ 4096 then offerFrame f (s.setLnk s.lnk.hunting)
  else feed f.bytes s

/-- The frame of a host command has arrived. -/
def receiveCommand (tag : Byte) (c : HostCmd) (s : State) : State := receiveFrame (hostFrame tag c) s

/-! ### The outbound lane -/

/-- What the end of a frame does to the item it was of (R40, R153). -/
def itemSent (item : LaneItem) (s : State) : State :=
  match item with
  | .lineChunk i => chunkSent i s
  | .framePart i => framePartSent i s
  | .ready | .reply | .event | .sweepEnd | .tileReport => s

/-- The last byte of the frame on the lane is sent: the item's progress, then the choice of the next frame, then a waiting
command frame (R164, R172, log 16). -/
def outboundFrameEnd (s : State) : State :=
  match s.oba.lane with
  | some f =>
    if f.endTick = s.now then
      let s1 := itemSent f.item s
      dispatchHeld (boundary (s1.setOba { s1.oba with lane := none }))
    else s
  | none => s

end Sys2Proof.Machine
end

