-- ==== Sys2Proof/Machine/Resets.lean ====
section
/-! DEFINITION. Resets and start-up (R181 to R183, and R19, R43, R68, R88, R105, R119, R135, R159, R169 for each block). -/

namespace Sys2Proof.Machine

/-- Every block takes its after-reset values and loading begins (R127, R181, R182). The tick counter, the source, the inputs
and the store pages are as given. -/
def startUp (cause : ResetCause) (s : State) : State :=
  { s with
    phase := .loading, resetCause := cause, scu := Scu.reset, las := Las.reset, rtu := Rtu.reset, pfm := none,
    mdu := Mdu.reset, hdu := Hdu.reset, lec := Lec.resetWith s.lec.ilkHigh, cal := s.cal.startUp, phu := Phu.reset,
    lnk := Lnk.reset, evr := Evr.reset, oba := Oba.reset }

/-- The frame on the lane is cut off and the fire strobe removed (R181, R135). -/
def cutOutputs (s : State) : State :=
  (s.setOba { s.oba with lane := none }).setRtu { s.rtu with strobe := none }

/-- A power-on reset: the supply comes up, or the reset input is asserted (R181): outputs and a page write are cut off, and
the part does nothing more until the release. -/
def powerOnReset (s : State) : State := (cutOutputs (cutPageWrite s)).setPhase .held

/-- The reset input is released, or the supply is up: after-reset values, tick counter 0 (R177, R178, R181). -/
def resetInputRelease (s : State) : State :=
  if s.phase = .held then
    startUp .powerOn (s.setTbu { tick := 0, source := .fallback, referencePresent := false })
  else s

/-- The reset wait can end: no frame being sent, no page write in progress (R181). -/
def State.resetReady (s : State) : Bool := s.phase == .resetWait && s.oba.lane.isNone && s.cal.page.isNone

/-- The soft reset proceeds, if nothing holds the reset wait any more (R181). -/
def softResetProceed (s : State) : State := if s.resetReady then startUp .soft s else s

/-- Loading ends (R182): the store enters IDLE, the source is set without an edge, receiver and return port are enabled, and
READY is begun (R183). `midRecord`: a return record stands partly assembled at the port (R56, log 25). -/
def loadingComplete (midRecord : Bool) (s : State) : State :=
  if s.phase = .loading then
    let source := if s.tbu.referencePresent then TimeSource.external else .fallback
    let s1 := (s.setCal { s.cal with state := .idle }).setTbu { s.tbu with source := source }
    let s2 := (s1.setLnk s1.lnk.hunting).setRtu { s1.rtu with discardNext := midRecord }
    (s2.setPhase .running).send .ready
      (report 0xC0 (readyPayload s.resetCause s.cal.defaulted source s.now))
  else s

/-- The supply is lost: outputs and a page write are cut off, and nothing works until the supply comes up (R135, log 26). -/
def supplyLoss (s : State) : State := (cutOutputs (cutPageWrite s)).setPhase .off

end Sys2Proof.Machine
end

