-- ==== Sys2Proof/Machine/HostRows.lean ====
section
/-! DEFINITION. The host command rows: each is the command's frame arriving at the receiver (log 4); what the command does is
in its block's file. -/

namespace Sys2Proof.Machine

/-- What a step answers. -/
abbrev Result := Host.Outcome State Fault Refusal

/-- A command is taken. A soft reset that nothing holds any more proceeds at once, so it has proceeded before any command acts
(R181, log 5). -/
def taken (f : State → State) (s : State) : Result := .next (f (softResetProceed s))

/-- STATUS_QUERY (R176). -/
def execStatusQuery (tag : Byte) (clear : Byte) (s : State) : Result :=
  taken (receiveCommand tag (.statusQuery clear)) s

/-- RESET (R181). -/
def execReset (tag : Byte) (s : State) : Result :=
  taken (receiveCommand tag .reset) s

/-- PROFILE_SET (R2). -/
def execProfileSet (tag : Byte) (bank speed : Byte) (pulses windowStart windowEnd azStep : Half)
    (echoMode keepEmpty : Byte) (s : State) : Result :=
  taken (receiveCommand tag (.profileSet bank speed pulses windowStart windowEnd azStep echoMode keepEmpty)) s

/-- PROFILE_GET (R3). -/
def execProfileGet (tag : Byte) (bank : Byte) (s : State) : Result :=
  taken (receiveCommand tag (.profileGet bank)) s

/-- SWEEP_START (R6, R7). -/
def execSweepStart (tag : Byte) (sweepId : Half) (kind bank : Byte) (a0 length : BitVec 24) (s : State) : Result :=
  taken (receiveCommand tag (.sweepStart sweepId kind bank a0 length)) s

/-- SWEEP_ABORT (R16). -/
def execSweepAbort (tag : Byte) (s : State) : Result :=
  taken (receiveCommand tag .sweepAbort) s

/-- GAPS_GET (R25). -/
def execGapsGet (tag : Byte) (s : State) : Result :=
  taken (receiveCommand tag .gapsGet) s

/-- MIRROR_SPIN (R82). -/
def execMirrorSpin (tag : Byte) (speed : Byte) (s : State) : Result :=
  taken (receiveCommand tag (.mirrorSpin speed)) s

/-- MIRROR_PARK (R83). -/
def execMirrorPark (tag : Byte) (count : Half) (s : State) : Result :=
  taken (receiveCommand tag (.mirrorPark count)) s

/-- MIRROR_STOP (R84). -/
def execMirrorStop (tag : Byte) (s : State) : Result :=
  taken (receiveCommand tag .mirrorStop) s

/-- HEAD_SLEW (R99). -/
def execHeadSlew (tag : Byte) (azimuth : BitVec 24) (s : State) : Result :=
  taken (receiveCommand tag (.headSlew azimuth)) s

/-- HEAD_HOLD (R100). -/
def execHeadHold (tag : Byte) (s : State) : Result :=
  taken (receiveCommand tag .headHold) s

/-- HEAD_RELEASE (R101). -/
def execHeadRelease (tag : Byte) (s : State) : Result :=
  taken (receiveCommand tag .headRelease) s

/-- EMIT_REQUEST (R111). -/
def execEmitRequest (tag : Byte) (duration : Byte) (s : State) : Result :=
  taken (receiveCommand tag (.emitRequest duration)) s

/-- EMIT_RENEW (R112). -/
def execEmitRenew (tag : Byte) (token : Half) (duration : Byte) (s : State) : Result :=
  taken (receiveCommand tag (.emitRenew token duration)) s

/-- EMIT_OFF (R113). -/
def execEmitOff (tag : Byte) (s : State) : Result :=
  taken (receiveCommand tag .emitOff) s

/-- CAL_SET (R128). -/
def execCalSet (tag : Byte) (page index : Byte) (value : Half) (s : State) : Result :=
  taken (receiveCommand tag (.calSet page index value)) s

/-- CAL_GET (R129). -/
def execCalGet (tag : Byte) (page : Byte) (s : State) : Result :=
  taken (receiveCommand tag (.calGet page)) s

/-- CAL_COMMIT (R131). -/
def execCalCommit (tag : Byte) (mask : Byte) (s : State) : Result :=
  taken (receiveCommand tag (.calCommit mask)) s

/-- CAL_REVERT (R130). -/
def execCalRevert (tag : Byte) (mask : Byte) (s : State) : Result :=
  taken (receiveCommand tag (.calRevert mask)) s

/-- STATION_SET (R138). -/
def execStationSet (tag : Byte) (station : Byte) (azimuth : BitVec 24) (elevation : Half) (count : Byte)
    (exposures : List (BitVec 24 × Byte)) (s : State) : Result :=
  taken (receiveCommand tag (.stationSet station azimuth elevation count exposures)) s

/-- STATION_CLEAR (R139). -/
def execStationClear (tag : Byte) (station : Byte) (s : State) : Result :=
  taken (receiveCommand tag (.stationClear station)) s

/-- STATION_GET (R140). -/
def execStationGet (tag : Byte) (station : Byte) (s : State) : Result :=
  taken (receiveCommand tag (.stationGet station)) s

/-- PHOTO_RUN_START (R142, R143). -/
def execPhotoRunStart (tag : Byte) (s : State) : Result :=
  taken (receiveCommand tag .photoRunStart) s

/-- PHOTO_RUN_ABORT (R157). -/
def execPhotoRunAbort (tag : Byte) (s : State) : Result :=
  taken (receiveCommand tag .photoRunAbort) s

/-- SUBSCRIBE (R174). -/
def execSubscribe (tag : Byte) (condition edge : Byte) (s : State) : Result :=
  taken (receiveCommand tag (.subscribe condition edge)) s

/-- PRIORITY_SET (R173). -/
def execPrioritySet (tag : Byte) (source level : Byte) (s : State) : Result :=
  taken (receiveCommand tag (.prioritySet source level)) s

/-- TIMEBASE_RESTORE (R179). -/
def execTimebaseRestore (tag : Byte) (s : State) : Result :=
  taken (receiveCommand tag .timebaseRestore) s

/-- A good frame of a kind that names no command (R164, R166). -/
def execUnknownKind (tag kind : Byte) (payload : List Byte) (s : State) : Result :=
  taken (receiveFrame { kind := kind, tag := tag, payload := payload }) s

end Sys2Proof.Machine
end

