-- ==== Sys2Proof/Machine/EventRows.lean ====
section
/-! DEFINITION. The event rows. An event is taken while the blocks work; without supply or held in reset an event that brings
an input's new value changes that input alone (log 26). -/

namespace Sys2Proof.Machine

/-- Take an event: `f` while the blocks work, else only the inputs it brings (log 26). -/
def State.onEvent (s : State) (inputs : Pins → Pins) (f : State → State) : State :=
  if s.phase.up then f s else s.setPins (inputs s.pins)

/-! ### Link -/

/-- INBOUND_FRAME_COMPLETE (R162): the inbound bytes that bring a frame to its end arrive. -/
def execInboundFrameComplete (bytes : List Byte) (s : State) : Result := taken (fun s => s.whenUp (feed bytes)) s

/-- SYNC_PAIR_FOUND (R162): the inbound bytes up to a sync pair arrive. -/
def execSyncPairFound (bytes : List Byte) (s : State) : Result := taken (fun s => s.whenUp (feed bytes)) s

/-- LENGTH_ABOVE_4096 (R162): the inbound bytes up to a second length byte arrive. -/
def execLengthAbove4096 (bytes : List Byte) (s : State) : Result := taken (fun s => s.whenUp (feed bytes)) s

/-- OUTBOUND_FRAME_END (R172). -/
def execOutboundFrameEnd (s : State) : Result := taken (fun s => s.whenUp outboundFrameEnd) s

/-! ### Resets, supply and timebase -/

/-- POWER_ON_RESET (R181). -/
def execPowerOnReset (s : State) : Result := taken powerOnReset s

/-- RESET_INPUT_RELEASE (R181). -/
def execResetInputRelease (s : State) : Result := taken resetInputRelease s

/-- SOFT_RESET_PROCEED (R181). -/
def execSoftResetProceed (s : State) : Result := .next (softResetProceed s)

/-- LOADING_COMPLETE (R182). -/
def execLoadingComplete (midRecord : Bool) (s : State) : Result := taken (loadingComplete midRecord) s

/-- SUPPLY_LOSS (R135). -/
def execSupplyLoss (s : State) : Result := taken supplyLoss s

/-- REFERENCE_LOSS (R178). -/
def execReferenceLoss (s : State) : Result := taken (fun s => s.whenUp referenceLoss) s

/-- REFERENCE_RETURN (R178). -/
def execReferenceReturn (s : State) : Result := taken (fun s => s.whenUp referenceReturn) s

/-! ### Sweep and point path -/

/-- INDEX_PULSE (R73, R36, R10): the mirror count is 0, the head count comes with the event. -/
def execIndexPulse (head : HeadCount) (s : State) : Result :=
  taken (fun s => s.onEvent (fun p => { p with mirrorCount := 0, headCount := head }) fun s =>
    tellAll (indexPulse (countsArrive 0 head s))) s

/-- PREPARE_TIMEOUT (R8, R14). -/
def execPrepareTimeout (s : State) : Result := taken (fun s => s.whenUp prepareTimeout) s

/-- PULSE_OPPORTUNITY (R48, R49). -/
def execPulseOpportunity (mirror : MirrorCount) (head : HeadCount) (s : State) : Result :=
  taken (fun s => s.onEvent (fun p => { p with mirrorCount := mirror, headCount := head }) fun s =>
    pulseOpportunity (countsArrive mirror head s)) s

/-- RETURN_RECORD_COMPLETE (R56). -/
def execReturnRecordComplete (record : WireRecord) (s : State) : Result := taken (returnRecordComplete record) s

/-- RETURN_TIMEOUT (R54). -/
def execReturnTimeout (s : State) : Result := taken (fun s => s.whenUp returnTimeout) s

/-- POINT_HANDOVER (R67). -/
def execPointHandover (s : State) : Result := taken (fun s => s.whenUp pointHandover) s

/-! ### Mirror -/

/-- SPINUP_TIMEOUT (R76). -/
def execSpinupTimeout (s : State) : Result := taken (fun s => s.whenUp fun s => tellAll (spinupTimeout s)) s

/-- INDEX_LOSS (R77). -/
def execIndexLoss (s : State) : Result := taken (fun s => s.whenUp fun s => tellAll (indexLoss s)) s

/-- PARK_TIMEOUT (R79). -/
def execParkTimeout (s : State) : Result := taken (fun s => s.whenUp fun s => tellAll (parkTimeout s)) s

/-- PARK_SETTLE_EXPIRY (R79, R145). -/
def execParkSettleExpiry (s : State) : Result := taken (fun s => s.whenUp parkSettleExpiry) s

/-- PARK_LOST (R80). -/
def execParkLost (s : State) : Result := taken (fun s => s.whenUp fun s => tellAll (parkLost s)) s

/-- PARK_DISTANCE_CHANGE (R79, R80). -/
def execParkDistanceChange (mirror : MirrorCount) (s : State) : Result :=
  taken (fun s => s.onEvent (fun p => { p with mirrorCount := mirror }) (mirrorMoves mirror)) s

/-- MIRROR_DRIVER_FAULT (R85). -/
def execMirrorDriverFault (asserted : Bool) (s : State) : Result :=
  taken (fun s => s.onEvent (fun p => { p with mirrorFault := asserted }) fun s => tellAll (mirrorDriverFault asserted s)) s

/-! ### Head -/

/-- HEAD_DISTANCE_CHANGE (R93, R96). -/
def execHeadDistanceChange (head : HeadCount) (s : State) : Result :=
  taken (fun s => s.onEvent (fun p => { p with headCount := head }) (headArrives head)) s

/-- HEAD_SETTLE_EXPIRY (R93, R8, R145). -/
def execHeadSettleExpiry (s : State) : Result := taken (fun s => s.whenUp headSettleExpiry) s

/-- SLEW_TIMEOUT (R94). -/
def execSlewTimeout (s : State) : Result := taken (fun s => s.whenUp fun s => tellAll (slewTimeout s)) s

/-- FOLLOWING_ERROR (R96). -/
def execFollowingError (head : HeadCount) (s : State) : Result :=
  taken (fun s => s.onEvent (fun p => { p with headCount := head }) (headArrives head)) s

/-- HEAD_DRIVER_FAULT (R97). -/
def execHeadDriverFault (asserted : Bool) (s : State) : Result :=
  taken (fun s => s.onEvent (fun p => { p with headFault := asserted }) fun s => tellAll (headDriverFault asserted s)) s

/-! ### Laser, store and photo run -/

/-- ILK_CHANGE (R107): without supply or held in reset the record's level follows the input (R106, log 26). -/
def execIlkChange (high : Bool) (s : State) : Result :=
  taken (fun s => if s.phase.up then tellAll (ilkChange high s) else s.setLec { s.lec with ilkHigh := high }) s

/-- LEASE_EXPIRY (R114). -/
def execLeaseExpiry (s : State) : Result := taken (fun s => s.whenUp fun s => tellAll (leaseExpiry s)) s

/-- PAGE_WRITE_END (R132): `agrees` is the outcome of the read-back. -/
def execPageWriteEnd (agrees : Bool) (s : State) : Result := taken (fun s => s.whenUp (pageWriteEnd agrees)) s

/-- POSITIONING_TIMEOUT (R146). -/
def execPositioningTimeout (s : State) : Result := taken (fun s => s.whenUp fun s => tellAll (positioningTimeout s)) s

/-- MID_EXPOSURE_SAMPLE (R148). -/
def execMidExposureSample (head : HeadCount) (mirror : MirrorCount) (s : State) : Result :=
  taken (fun s => s.onEvent (fun p => { p with headCount := head, mirrorCount := mirror }) fun s =>
    midExposureSample (countsArrive mirror head s)) s

/-- EXPOSURE_END (R148). -/
def execExposureEnd (s : State) : Result := taken (fun s => s.whenUp exposureEnd) s

/-- READOUT_END (R149). -/
def execReadoutEnd (image : PixelList) (s : State) : Result := taken (fun s => s.whenUp fun s => tellAll (readoutEnd image s)) s

end Sys2Proof.Machine
end

