-- ==== Sys2Proof/Machine/Dispatch.lean ====
section
/-! DEFINITION. `exec`: one arm for each command, each a call of its meaning. -/

namespace Sys2Proof.Machine

/-- The effect of a command on everything but the queue. -/
def exec (i : Instr) (s : State) : Host.Outcome State Fault Refusal :=
  match i with
  | .statusQuery tag clear => Sys2Proof.Machine.execStatusQuery tag clear s
  | .reset tag => Sys2Proof.Machine.execReset tag s
  | .profileSet tag bank speed pulses windowStart windowEnd azStep echoMode keepEmpty => Sys2Proof.Machine.execProfileSet tag bank speed pulses windowStart windowEnd azStep echoMode keepEmpty s
  | .profileGet tag bank => Sys2Proof.Machine.execProfileGet tag bank s
  | .sweepStart tag sweepId kind bank a0 length => Sys2Proof.Machine.execSweepStart tag sweepId kind bank a0 length s
  | .sweepAbort tag => Sys2Proof.Machine.execSweepAbort tag s
  | .gapsGet tag => Sys2Proof.Machine.execGapsGet tag s
  | .mirrorSpin tag speed => Sys2Proof.Machine.execMirrorSpin tag speed s
  | .mirrorPark tag count => Sys2Proof.Machine.execMirrorPark tag count s
  | .mirrorStop tag => Sys2Proof.Machine.execMirrorStop tag s
  | .headSlew tag azimuth => Sys2Proof.Machine.execHeadSlew tag azimuth s
  | .headHold tag => Sys2Proof.Machine.execHeadHold tag s
  | .headRelease tag => Sys2Proof.Machine.execHeadRelease tag s
  | .emitRequest tag duration => Sys2Proof.Machine.execEmitRequest tag duration s
  | .emitRenew tag token duration => Sys2Proof.Machine.execEmitRenew tag token duration s
  | .emitOff tag => Sys2Proof.Machine.execEmitOff tag s
  | .calSet tag page index value => Sys2Proof.Machine.execCalSet tag page index value s
  | .calGet tag page => Sys2Proof.Machine.execCalGet tag page s
  | .calCommit tag mask => Sys2Proof.Machine.execCalCommit tag mask s
  | .calRevert tag mask => Sys2Proof.Machine.execCalRevert tag mask s
  | .stationSet tag station azimuth elevation count exposures => Sys2Proof.Machine.execStationSet tag station azimuth elevation count exposures s
  | .stationClear tag station => Sys2Proof.Machine.execStationClear tag station s
  | .stationGet tag station => Sys2Proof.Machine.execStationGet tag station s
  | .photoRunStart tag => Sys2Proof.Machine.execPhotoRunStart tag s
  | .photoRunAbort tag => Sys2Proof.Machine.execPhotoRunAbort tag s
  | .subscribe tag condition edge => Sys2Proof.Machine.execSubscribe tag condition edge s
  | .prioritySet tag source level => Sys2Proof.Machine.execPrioritySet tag source level s
  | .timebaseRestore tag => Sys2Proof.Machine.execTimebaseRestore tag s
  | .unknownKind tag kind payload => Sys2Proof.Machine.execUnknownKind tag kind payload s
  | .inboundFrameComplete bytes => Sys2Proof.Machine.execInboundFrameComplete bytes s
  | .outboundFrameEnd => Sys2Proof.Machine.execOutboundFrameEnd s
  | .powerOnReset => Sys2Proof.Machine.execPowerOnReset s
  | .resetInputRelease => Sys2Proof.Machine.execResetInputRelease s
  | .softResetProceed => Sys2Proof.Machine.execSoftResetProceed s
  | .loadingComplete midRecord => Sys2Proof.Machine.execLoadingComplete midRecord s
  | .referenceLoss => Sys2Proof.Machine.execReferenceLoss s
  | .referenceReturn => Sys2Proof.Machine.execReferenceReturn s
  | .indexPulse head => Sys2Proof.Machine.execIndexPulse head s
  | .prepareTimeout => Sys2Proof.Machine.execPrepareTimeout s
  | .pulseOpportunity mirror head => Sys2Proof.Machine.execPulseOpportunity mirror head s
  | .returnRecordComplete record => Sys2Proof.Machine.execReturnRecordComplete record s
  | .returnTimeout => Sys2Proof.Machine.execReturnTimeout s
  | .pointHandover => Sys2Proof.Machine.execPointHandover s
  | .spinupTimeout => Sys2Proof.Machine.execSpinupTimeout s
  | .indexLoss => Sys2Proof.Machine.execIndexLoss s
  | .parkTimeout => Sys2Proof.Machine.execParkTimeout s
  | .parkSettleExpiry => Sys2Proof.Machine.execParkSettleExpiry s
  | .parkLost => Sys2Proof.Machine.execParkLost s
  | .parkDistanceChange mirror => Sys2Proof.Machine.execParkDistanceChange mirror s
  | .mirrorDriverFault asserted => Sys2Proof.Machine.execMirrorDriverFault asserted s
  | .headDistanceChange head => Sys2Proof.Machine.execHeadDistanceChange head s
  | .headSettleExpiry => Sys2Proof.Machine.execHeadSettleExpiry s
  | .slewTimeout => Sys2Proof.Machine.execSlewTimeout s
  | .followingError head => Sys2Proof.Machine.execFollowingError head s
  | .headDriverFault asserted => Sys2Proof.Machine.execHeadDriverFault asserted s
  | .ilkChange high => Sys2Proof.Machine.execIlkChange high s
  | .leaseExpiry => Sys2Proof.Machine.execLeaseExpiry s
  | .pageWriteEnd agrees => Sys2Proof.Machine.execPageWriteEnd agrees s
  | .positioningTimeout => Sys2Proof.Machine.execPositioningTimeout s
  | .midExposureSample head mirror => Sys2Proof.Machine.execMidExposureSample head mirror s
  | .exposureEnd => Sys2Proof.Machine.execExposureEnd s
  | .readoutEnd image => Sys2Proof.Machine.execReadoutEnd image s
  | .syncPairFound bytes => Sys2Proof.Machine.execSyncPairFound bytes s
  | .lengthAbove4096 bytes => Sys2Proof.Machine.execLengthAbove4096 bytes s
  | .supplyLoss => Sys2Proof.Machine.execSupplyLoss s

end Sys2Proof.Machine
end

