-- ==== Sys2Proof/Machine/Idle.lean ====
section
/-! DEFINITION. What the part does when no command waits: one tick passes, and the events that fall due at the new tick are
put into the queue (log 1, log 2, log 3). -/

namespace Sys2Proof.Machine

/-- One event, when its condition holds. -/
def dueIf (b : Bool) (c : Instr) : List Instr := if b then [c] else []

/-- The return timeout of the head entries: one event for each entry whose timeout is now (R54). -/
def dueReturns (s : State) : List Instr :=
  (s.rtu.fireLog.filter fun e => ticksAfter e.tick returnTicks == s.now).map fun _ => .returnTimeout

/-- The page write that ends now, with a read-back that is open (R132, log 10). -/
def duePageWrite (s : State) : List Instr :=
  dueIf (s.cal.page.isSome && s.due s.cal.pageWriteEnd) (.pageWriteEnd (Config.readBackAgrees s.freeDraw))

/-- The readout that ends now, with an image that is open (R149, log 10). -/
def dueReadout (s : State) : List Instr :=
  dueIf (s.phu.state == .readout && s.due s.phu.phaseEnd) (.readoutEnd (Config.sensorImage s.freeDraw))

/-- The timers of the mirror that run out now (R76, R77, R79, R80). -/
def dueMirror (s : State) : List Instr :=
  dueIf (s.mdu.state == .spinup && s.due s.mdu.spinupTimer) .spinupTimeout
    ++ dueIf (s.mdu.state.coarseLock && s.due s.mdu.watchdog) .indexLoss
    ++ dueIf (s.mdu.state == .parking && s.due s.mdu.parkTimer) .parkTimeout
    ++ dueIf s.parkSettleDue .parkSettleExpiry
    ++ dueIf (s.mdu.state == .parked && s.due s.mdu.parkExcursion) .parkLost

/-- The timers of the head that run out now, and a following error past its limit (R93, R94, R96). -/
def dueHead (s : State) : List Instr :=
  dueIf s.settleDue .headSettleExpiry
    ++ dueIf ((s.hdu.state == .slewing || s.hdu.state == .settling) && s.due s.hdu.slewTimer) .slewTimeout
    ++ dueIf s.followingExceeds (.followingError s.pins.headCount)

/-- The timers of the photo run that run out now (R146, R148). -/
def duePhoto (s : State) : List Instr :=
  dueIf (s.phu.state == .positioning && s.due s.phu.positioningEnd) .positioningTimeout
    ++ dueIf s.sampleDue.isSome (.midExposureSample s.pins.headCount s.pins.mirrorCount)
    ++ dueIf (s.phu.state == .exposing && s.due s.phu.phaseEnd) .exposureEnd

/-- The events of the point path and the outbound lane that fall due now (R8, R65, R114, R172). -/
def dueOthers (s : State) : List Instr :=
  dueIf (s.scu.state == .preparing && s.due s.scu.prepareTimer) .prepareTimeout
    ++ dueIf (s.due (s.pfm.map PointWork.doneAt)) .pointHandover
    ++ dueIf (s.lec.state == .leased && s.due s.lec.expiry) .leaseExpiry
    ++ dueIf (s.due (s.oba.lane.map Sending.endTick)) .outboundFrameEnd

/-- All events that fall due at this tick. -/
def dueEvents (s : State) : List Instr :=
  dueOthers s ++ dueReturns s ++ dueMirror s ++ dueHead s ++ duePageWrite s ++ duePhoto s ++ dueReadout s

/-- Put an event into a list at a place, or at its end. -/
def placeEvent (x : Instr) : List Instr → Nat → List Instr
  | [], _ => [x]
  | y :: ys, 0 => x :: y :: ys
  | y :: ys, n + 1 => y :: placeEvent x ys n

/-- The events in the order in which they are taken, which is open (log 2). -/
def raceQueue (draw : Nat) (events : List Instr) : List Instr :=
  events.foldl (fun acc x => placeEvent x acc (Config.raceOrder draw acc.length)) []

/-- One tick passes (R177): the following error is kept up to date (R96), and the events due at the new tick wait. -/
def oneTick (s : State) : State :=
  let s1 := syncFollowing (s.setTbu { s.tbu with tick := s.tbu.tick + 1 })
  match dueEvents s1 with
  | [] => s1
  | e :: es => (s1.setFreeDraw (s1.freeDraw + 1)).setPending (raceQueue s1.freeDraw (e :: es))

/-- A step with no command waiting: without supply or held in reset nothing; a soft reset that can proceed does so before a
tick passes (log 5); else one tick. -/
def idle (s : State) : State :=
  if s.phase.up then
    if s.resetReady then s.setPending [.softResetProceed] else oneTick s
  else s

end Sys2Proof.Machine
end

