-- ==== Sys2Proof/WellFormed.lean ====
section
/-! DEFINITION. Which terms of `Instr` are commands that can come: the checks that a term's own fields must meet. -/

namespace Sys2Proof

/-- The pixels of a frame: 2,048 × 1,536 (R151). -/
abbrev framePixels : Nat := 3145728

/-- The pixel numbers rise strictly, each at least `low`. -/
def PixelList.risingFrom (low : Nat) : PixelList → Bool
  | [] => true
  | (n, _) :: rest => decide (low ≤ n) && PixelList.risingFrom (n + 1) rest

/-- The canonical form of an image's list: numbers rising strictly, inside the frame, no value 0 (log 21). -/
def PixelList.wf (l : PixelList) : Bool :=
  PixelList.risingFrom 0 l && l.all fun p => decide (p.1 < framePixels) && p.2 != 0

/-- The kinds of the command catalogue, 01h to 1Ch (R166). -/
def isCommandKind (kind : Byte) : Bool := decide (1 ≤ kind.toNat) && decide (kind.toNat ≤ 28)

/-- The form of a command: STATION_SET carries one to three exposures (R164: a payload of 11, 15 or 19 bytes), an unknown
kind is no kind of the catalogue and its payload fits a frame (R161), the bytes of a receiver event can end in that event
(R162), and an image is in canonical form. -/
def Instr.wf : Instr → Bool
  | .stationSet _ _ _ _ _ exposures => decide (1 ≤ exposures.length) && decide (exposures.length ≤ 3)
  | .unknownKind _ kind payload => !isCommandKind kind && decide (payload.length ≤ 4096)
  | .inboundFrameComplete bytes => decide (1 ≤ bytes.length) && decide (bytes.length ≤ 4104)
  | .syncPairFound bytes => bytes.getLast? == some 0x5A#8
  | .lengthAbove4096 bytes => decide (1 ≤ bytes.length) && decide (bytes.length ≤ 6)
  | .readoutEnd image => image.wf
  | _ => true

end Sys2Proof
end

