-- ==== Sys2Proof/Safety.lean ====
section
/-! DEFINITION. The words the statements use: what a command that is answered leaves (R163 to R165), what the outbound side
may do by itself (R172), and the invariants of the part (R20, R26, R51, R106, R107, R115, R151, R165, R172, R175). -/

namespace Sys2Proof.Machine

/-! ### Commands -/

/-- A whole command frame that arrives now is taken at once: the part runs, the receiver is in HUNT, the holding buffer is
empty and the reply queue has room (R162, R163, R164). -/
def Accepts (s : State) : Prop :=
  s.phase = .running ∧ s.lnk.rx = .hunt ∧ s.lnk.holding = none ∧ s.lnk.replies.length < 4

/-- The blocks work, and no reset wait stands that nothing holds any more: a command acts on the part as it stands (R181, log 5,
log 26). -/
def State.active (s : State) : Bool := s.phase.up && !s.resetReady

/-- The row of a host command. -/
def hostRow (tag : Byte) : HostCmd → Instr
  | .statusQuery clear => .statusQuery tag clear
  | .reset => .reset tag
  | .profileSet bank speed pulses windowStart windowEnd azStep echoMode keepEmpty =>
    .profileSet tag bank speed pulses windowStart windowEnd azStep echoMode keepEmpty
  | .profileGet bank => .profileGet tag bank
  | .sweepStart sweepId kind bank a0 length => .sweepStart tag sweepId kind bank a0 length
  | .sweepAbort => .sweepAbort tag
  | .gapsGet => .gapsGet tag
  | .mirrorSpin speed => .mirrorSpin tag speed
  | .mirrorPark count => .mirrorPark tag count
  | .mirrorStop => .mirrorStop tag
  | .headSlew azimuth => .headSlew tag azimuth
  | .headHold => .headHold tag
  | .headRelease => .headRelease tag
  | .emitRequest duration => .emitRequest tag duration
  | .emitRenew token duration => .emitRenew tag token duration
  | .emitOff => .emitOff tag
  | .calSet page index value => .calSet tag page index value
  | .calGet page => .calGet tag page
  | .calCommit mask => .calCommit tag mask
  | .calRevert mask => .calRevert tag mask
  | .stationSet station azimuth elevation count exposures => .stationSet tag station azimuth elevation count exposures
  | .stationClear station => .stationClear tag station
  | .stationGet station => .stationGet tag station
  | .photoRunStart => .photoRunStart tag
  | .photoRunAbort => .photoRunAbort tag
  | .subscribe condition edge => .subscribe tag condition edge
  | .prioritySet source level => .prioritySet tag source level
  | .timebaseRestore => .timebaseRestore tag

/-- The payload lengths of the command catalogue, kind 01h first; STATION_SET, kind 15h, has three and stands here with its
shortest (R166). -/
def commandLengths : List Nat :=
  [1, 0, 12, 1, 10, 0, 0, 1, 2, 0, 3, 0, 0, 1, 3, 0, 4, 1, 1, 1, 11, 1, 1, 0, 0, 2, 2, 0]

/-- A payload's length fits its kind (R164 step 2): the length of the catalogue; of STATION_SET 11, 15 or 19, and an exposure
count from 1 to 3, the payload's seventh byte, agrees with it. -/
def LengthFits (kind : Byte) (payload : List Byte) : Prop :=
  if kind = 0x15 then
    (payload.length = 11 ∨ payload.length = 15 ∨ payload.length = 19) ∧
      ∀ n ∈ payload[6]?, 1 ≤ n.toNat → n.toNat ≤ 3 → payload.length = 4 * n.toNat + 7
  else commandLengths[kind.toNat - 1]? = some payload.length

/-- The part as a command taken at once finds it: the receiver in HUNT, the holding buffer empty. -/
def State.listening (s : State) : State := s.setLnk s.lnk.hunting

/-- Everything but the outbound side: the state with the queues, the ring, the frame store, the event queue and the lane put
aside. Two states with one `inner` agree on every other block, the inputs, the timebase and the queue of commands. -/
def State.inner (s : State) : State :=
  ((((s.setLas Las.reset).setPhu Phu.reset).setLnk Lnk.reset).setEvr Evr.reset).setOba Oba.reset

/-- A line slot that is the same, or the same with its first chunk begun (R40). -/
def SlotKept (x y : LineSlot) : Prop := y = x ∨ y = { x with state := .draining }

/-- A frame slot that is the same, or the same with its PHOTO_BEGIN begun (R153). -/
def FrameKept (x y : FrameSlot) : Prop := y = x ∨ y = { x with state := .draining }

/-- What the outbound side may do by itself between two states, with nothing put into the LINE and TILE sources (R172): begin
frames of waiting items. The ring, the frame store, the station table, the run record, the subscriptions and the levels stay;
items may leave the heads of the sources. -/
structure Arbited (s t : State) : Prop where
  position      : t.las.position = s.las.position
  slots         : ∀ i : Fin 8, SlotKept s.las.slots[i] t.las.slots[i]
  lines         : t.las.source <:+ s.las.source
  frames        : ∀ i : Fin 2, FrameKept s.phu.slots[i] t.phu.slots[i]
  photo         : { t.phu with slots := s.phu.slots, source := s.phu.source } = s.phu
  tiles         : t.phu.source <:+ s.phu.source
  subscriptions : t.evr.subscriptions = s.evr.subscriptions
  eventLevel    : t.oba.eventLevel = s.oba.eventLevel
  lineLevel     : t.oba.lineLevel = s.oba.lineLevel
  tileLevel     : t.oba.tileLevel = s.oba.tileLevel

/-- The reply `f` waits in the reply queue or is the frame on the lane. -/
def ReplyOut (t : State) (f : Frame) : Prop := f ∈ t.lnk.replies ∨ ∃ x, t.oba.lane = some x ∧ x.item = .reply ∧ x.frame = f

/-- A command frame was taken and answered with `f` (R163, R164): the receiver hunts, the holding buffer is empty, the link
counters stand, and the reply is out. With the lane busy it goes behind the replies that wait, and the lane goes on with its
frame. -/
structure Answered (s t : State) (f : Frame) : Prop where
  receiver : t.lnk.rx = .hunt ∧ t.lnk.sawC3 = false ∧ t.lnk.assembly = []
  holding  : t.lnk.holding = none
  counters : t.lnk.crcErrors = s.lnk.crcErrors ∧ t.lnk.overruns = s.lnk.overruns
  reply    : ReplyOut t f
  busy     : s.oba.lane ≠ none → t.lnk.replies = s.lnk.replies ++ [f] ∧ t.oba.lane = s.oba.lane

/-- But for the reply that goes out nothing of the outbound side changes: the ring, the frame store, the station table, the run
record, the Event Reporter and the levels stand (R172). -/
structure Undisturbed (s t : State) : Prop where
  las    : t.las = s.las
  phu    : t.phu = s.phu
  evr    : t.evr = s.evr
  levels : t.oba = { s.oba with lane := t.oba.lane }

/-- The command `c` is answered with `f`, and that is all it does: every block, the inputs, the timebase, the queues and the
levels stand, as at a refusal (00_scope.md). -/
def OnlyAnswered (c : Instr) (s : State) (f : Frame) : Prop :=
  ∃ t, exec c s = .next t ∧ t.inner = s.inner ∧ Undisturbed s t ∧ Answered s t f

/-- The Event Reporter takes an event at a tick (R175): to the tail of its queue, or, when 16 wait, dropped and counted. -/
def Evr.take (now : Tick) (e : Evr) (b : EventBody) : Evr :=
  if e.queue.length < 16 then { e with queue := e.queue ++ [{ body := b, tick := now }] }
  else { e with lost := satInc 255 e.lost }

/-- The Event Reporter takes events with the lane idle and its queue empty: the first one's frame begins at once and takes the
count of lost events with it, the others wait (R172, R175). -/
def Evr.takeFed (now : Tick) (e : Evr) : List EventBody → Evr
  | [] => e
  | _ :: rest => rest.foldl (Evr.take now) { e with lost := 0 }

/-- These events, in this order, and no others reach the Event Reporter between two states of one tick (R175). With the lane
busy, or the part not running, each waits or is lost; with the lane idle and every source empty the first one's frame begins
at its append (log 16). -/
structure Reported (bodies : List EventBody) (s t : State) : Prop where
  waits  : s.oba.lane ≠ none ∨ s.phase ≠ .running → t.evr = bodies.foldl (Evr.take s.now) s.evr
  begins : s.oba.lane = none → s.phase = .running → (∀ x, s.items x = 0) →
    t.evr = s.evr.takeFed s.now bodies

/-- The CONDITION event of a change to a level, if the condition's setting selects it (R174). -/
def State.edge (s : State) (c : Condition) (level : Bool) : List EventBody :=
  if (s.evr.setting c).selects level then [.condition c level] else []

/-- The events of an interlock that becomes unsatisfied: INTERLOCK_OK falls if it was satisfied, then EMIT_LEASED if a lease
was held (R108). -/
def State.interlockFalls (s : State) : List EventBody :=
  if s.lec.satisfied then
    s.edge .interlockOk false ++ if s.lec.state = .leased then s.edge .emitLeased false else []
  else []

/-- The events of a mirror that leaves its speed state: MIRROR_FINE falls if it was FINE, then, out of COARSE and FINE,
MIRROR_COARSE, and the interlock becomes unsatisfied (R86, R108). -/
def State.mirrorFalls (s : State) : List EventBody :=
  if s.mdu.state.coarseLock then
    (if s.mdu.state = .fine then s.edge .mirrorFine false else []) ++ s.edge .mirrorCoarse false ++ s.interlockFalls
  else []

/-- A frame that begins at this tick, as the lane holds it: 2 × (n + 8) ticks for n payload bytes (R172). -/
def State.laneWith (s : State) (item : LaneItem) (f : Frame) : Option Sending :=
  some { item := item, frame := f, endTick := ticksAfter s.now (2 * (f.payload.length + 8)) }

/-! ### The sweep -/

/-- An interruption event has an effect (R13, R15): a sweep is in progress, and no cause is recorded in CLOSING. -/
def State.interruptible (s : State) : Prop := s.scu.state ≠ .idle ∧ (s.scu.state = .closing → s.scu.endCause = .none)

/-- A head in SWEEPING whose following error at this count is within its limit (R96); the limit is judged on the exact error
(log 12). -/
def State.keepsUp (s : State) (head : HeadCount) : Prop :=
  ∀ start, s.hdu.state = .sweeping → s.hdu.referenceStart = some start →
    (followingExact start s.hdu.rate head s.now).natAbs ≤ 256 * 80000000

/-- The gap list after an interruption that leaves the schedule unmeasured from line `j` on (R14 step 3). -/
def Scu.gapsFrom (c : Scu) (j : Nat) : GapList :=
  if c.kind = .full ∧ j < c.lines then c.gaps.add c.sweepId (c.lineOffset j) ((c.lines - j) * c.profile.azStep)
  else c.gaps

/-- The sweep record as the close of the sweep leaves it (R17). -/
def Scu.closedAt (c : Scu) (now : Tick) : Scu :=
  { c with
    state := .idle, endTick := now,
    result :=
      if c.endCause = .none then (if c.gaps.entries = [] then .complete else .completeWithGaps)
      else if c.endCause = .hostAbort then .aborted else .interrupted }

/-- The sweep record of an interrupted sweep that has ended, `j` the first line not measured (R14, R17). -/
def Scu.endedBy (c : Scu) (cause : SweepCause) (now : Tick) (j : Nat) : Scu :=
  { c with endCause := cause, prepareTimer := none, gaps := c.gapsFrom j }.closedAt now

/-- The sweep record when the seal of a line that is not TRUNCATED is taken (R11). -/
def Scu.afterSeal (c : Scu) (line : Nat) (clean : Bool) : Scu :=
  if clean then
    { c with
      clean := satInc c.lines c.clean
      gaps := c.gaps.subtractInterval c.sweepId (c.lineOffset line) c.profile.azStep }
  else
    { c with
      flagged := satInc c.lines c.flagged
      gaps := match c.kind with
        | .full => c.gaps.add c.sweepId (c.lineOffset line) c.profile.azStep
        | .patch => c.gaps }

/-- What the close of a sweep does beside its record (R17): the mirror is free, a head that SWEEP still owns is held and freed,
and SWEEP_END goes behind `lines` and what waited (R39). -/
structure SweepFreed (cause : SweepCause) (lines : List LineItem) (s t : State) : Prop where
  mirror : t.mdu.owner = .none
  head   : cause ≠ .headFault → s.hdu.owner = .sweep → t.hdu.owner = .none ∧
    (s.hdu.state = .slewing ∨ s.hdu.state = .settling ∨ s.hdu.state = .sweeping →
      t.hdu.state = .settling ∧ t.hdu.target = s.pins.headCount ∧ t.hdu.settleTimer = some (ticksAfter s.now 2000000))
  report : s.oba.lane ≠ none → s.las.sweepEnds < 8 → t.las.source = s.las.source ++ lines ++ [.sweepEnd t.scu.report]

/-- Slot `i` after the seal of its line at which `lost` entries are counted lost in all (R36 to R38): the flags are decided, the
pulse counters stand, and, with the lane busy, it is SEALED. -/
structure LineSealed (i : Fin 8) (truncated deviation : Bool) (lost : Nat) (s t : State) : Prop where
  state  : t.las.slots[i].state = .sealed ∨ (s.oba.lane = none ∧ t.las.slots[i].state = .draining)
  flags  : t.las.slots[i].truncated = truncated ∧ t.las.slots[i].speedDeviation = deviation ∧
    t.las.slots[i].returnLoss = decide (0 < lost + s.las.slots[i].skipped) ∧
    t.las.slots[i].timebaseFallback = s.las.slots[i].timebaseFallback
  counts : t.las.slots[i].lost = lost ∧ t.las.slots[i].fired = s.las.slots[i].fired ∧
    t.las.slots[i].skipped = s.las.slots[i].skipped ∧ t.las.slots[i].scheduled = s.las.slots[i].scheduled
  header : t.las.slots[i].sweepId = s.las.slots[i].sweepId ∧ t.las.slots[i].lineIndex = s.las.slots[i].lineIndex ∧
    t.las.slots[i].azimuth = s.las.slots[i].azimuth ∧ t.las.slots[i].openTick = s.las.slots[i].openTick

/-- An interruption was taken between two states of one tick (R14, R15). -/
structure Interrupted (cause : SweepCause) (s t : State) : Prop where
  /-- With no line FILLING the sweep ends at once (R17). -/
  atOnce    : s.las.filling = none → t.scu = s.scu.endedBy cause s.now s.scu.k ∧ SweepFreed cause [] s t
  /-- A FILLING line with entries in the fire log stops firing and waits for them in CLOSING (R37). -/
  stopped   : ∀ i, s.las.filling = some i → .slot i ∉ s.las.source → (∃ e ∈ s.rtu.fireLog, e.slot = i) →
    (s.rtu.holding = none ∨ s.pfm ≠ none) →
    t.scu = { s.scu with
      state := .closing, endCause := cause, prepareTimer := none,
      gaps := s.scu.gapsFrom s.las.slots[i].lineIndex } ∧
    t.las.slots[i] = { s.las.slots[i] with mode := .stopped } ∧ t.rtu = s.rtu ∧
    (s.oba.lane ≠ none → t.las.source = s.las.source)
  /-- A FILLING line with no entry in the fire log is sealed TRUNCATED at once, and the sweep ends (R37, R11, R17). -/
  truncated : ∀ i, s.las.filling = some i → .slot i ∉ s.las.source → (∀ e ∈ s.rtu.fireLog, e.slot ≠ i) →
    (∀ j, s.las.slots[j].state = .filling → j = i) → s.rtu.holding = none →
    t.scu = { s.scu.endedBy cause s.now s.las.slots[i].lineIndex with flagged := satInc s.scu.lines s.scu.flagged } ∧
    LineSealed i true false s.las.slots[i].lost s t ∧ SweepFreed cause [.slot i] s t

/-- The slot of a line that opens for the sweep's line k (R28, R30). -/
def State.lineOpened (s : State) (head : HeadCount) : LineSlot :=
  { LineSlot.free with
    state := .filling, sweepId := s.scu.sweepId, lineIndex := s.scu.k, azimuth := head, openTick := s.now,
    echoMode := s.scu.profile.echoMode, keepEmpty := s.scu.profile.keepEmpty,
    timebaseFallback := s.tbu.source == .fallback, scheduled := s.scu.profile.pulses.toNat }

/-- The lost count of slot `i` when its entries still in the fire log are retired LOST (R36 step 1). -/
def State.lostAtSeal (s : State) (i : Fin 8) : Nat :=
  Nat.repeat (satInc 8192) (s.rtu.fireLog.filter fun e => e.slot == i).length s.las.slots[i].lost

/-! ### Points -/

/-- The fine vertical angle of a pulse (R121). -/
def VangleCorrected (w : Pages) (c : MirrorCount) (v : FineAngle) : Prop :=
  let u := (c.toNat + 16384 - 128) % 16384
  let f : Int := (u % 256 : Nat)
  (v.toNat : Int) =
    (16 * c.toNat + (entryAt w.vangle (u / 256) * (256 - f) + entryAt w.vangle ((u / 256 + 1) % 64) * f) / 256) % 262144

/-- The azimuth of a pulse (R122). -/
def AzimuthCorrected (w : Pages) (c : MirrorCount) (h v : HeadCount) : Prop :=
  (v.toNat : Int) = (h.toNat + entryAt w.hangle (c.toNat / 256)) % 1048576

/-- A written echo (R67, R123). -/
def EchoCorrected (w : Pages) (r : RawEcho) (e : Echo) : Prop :=
  (e.range.toNat : Int)
      = max 0 (min 16777215 (r.range.toNat + w.rangeOffset + entryAt w.walk (r.amplitude.toNat / 256))) ∧
    e.amplitude = r.amplitude

/-- The echo that a mode of one echo writes (R66): `ahead` of it in the record and `behind` it stand echoes it is preferred
to. -/
def Picked (ahead behind : RawEcho → RawEcho → Prop) (w : Pages) (es : List RawEcho) (out : List Echo) : Prop :=
  (es = [] ∧ out = []) ∨
    ∃ pre x post e, es = pre ++ x :: post ∧ (∀ y ∈ pre, ahead x y) ∧ (∀ y ∈ post, behind x y) ∧ EchoCorrected w x e ∧
      out = [e]

/-- The echoes of a point (R66). -/
def EchoesSelected (mode : EchoMode) (w : Pages) (es : List RawEcho) (out : List Echo) : Prop :=
  match mode with
  | .first => Picked (fun x y => x.range < y.range) (fun x y => x.range ≤ y.range) w es out
  | .last => Picked (fun x y => y.range < x.range) (fun x y => y.range ≤ x.range) w es out
  | .strongest =>
    Picked (fun x y => y.amplitude < x.amplitude ∨ (y.amplitude = x.amplitude ∧ x.range < y.range))
      (fun x y => y.amplitude < x.amplitude ∨ (y.amplitude = x.amplitude ∧ x.range ≤ y.range)) w es out
  | .all =>
    ∃ l : List Echo, l.length = es.length ∧ (∀ x ∈ es.zip l, EchoCorrected w x.1 x.2) ∧
      out.Pairwise (fun a b => a.range ≤ b.range) ∧
      ∀ v, (out.filter fun e => e.range == v) = l.filter fun e => e.range == v

/-- The point of an entry and its record (R67). -/
structure PointFormed (w : Pages) (mode : EchoMode) (e : FireEntry) (r : ReturnRecord) (p : Point) : Prop where
  pulse   : p.pulse = e.pulse
  vangle  : VangleCorrected w e.mirror p.vangle
  azimuth : AzimuthCorrected w e.mirror e.head p.azimuth
  echoes  : EchoesSelected mode w r.echoes p.echoes

/-! ### The photo run -/

/-- A run has ended early (R156): the record holds result and cause, its timers are stopped, the station table and the serials
stand, the sensor is stopped, an exposure in progress is discarded to FREE, the mirror is free, and PHOTO_RUN_END goes behind what
waited. -/
structure RunEnded (result : RunResult) (cause : RunCause) (s t : State) : Prop where
  record  : t.phu = { s.phu with
    state := .idle, slotInUse := none, positioningEnd := none, phaseEnd := none, result := result, endCause := cause,
    slots := t.phu.slots, source := t.phu.source }
  sensor  : t.sensorDrive = .stopped
  slots   : ∀ i, s.phu.exposureHeld = some i → .frame i ∉ s.phu.source → t.phu.slots[i].state = .free
  owners  : (s.hdu.owner = .photo → t.hdu.owner = .none) ∧ t.mdu.owner = .none
  report  : s.oba.lane ≠ none → t.phu.source = s.phu.source ++
    [.runEnd { result := result, endCause := cause, stations := s.phu.runList.length, done := s.phu.done,
               missed := s.phu.missed, exposures := s.phu.readOut, discarded := s.phu.exposureHeld.isSome, tick := s.now }]

/-- The events of an early end (R154, R156): FRAMES_FULL falls if a discarded exposure held the last slot. -/
def State.discardFalls (s : State) : List EventBody :=
  if s.phu.exposureHeld.isSome ∧ s.phu.freeFrame = none then s.edge .framesFull false else []

/-- An exposure of station `st` has started in slot `i` at this tick, or the run waits for a slot (R147, R148, R150). -/
structure ExposureBegun (st : Fin 32) (e : Exposure) (s t : State) : Prop where
  started : ∀ i, s.phu.freeFrame = some i → .frame i ∉ s.phu.source →
    t.phu.state = .exposing ∧ t.phu.slotInUse = some i ∧ t.phu.phaseEnd = some (ticksAfter s.now (e.time * 40)) ∧
    t.phu.nextSerial = s.phu.nextSerial + 1 ∧ t.sensorDrive = .exposing e.time e.gain ∧
    t.phu.slots[i] = {
      state := .exposing, station := st, exposure := t.phu.exposure, serial := s.phu.nextSerial, headAzimuth := none,
      mirrorCount := none, time := e.time, gain := e.gain, startTick := s.now, fallback := s.tbu.source == .fallback,
      image := [], framesSent := 0 }
  waits   : s.phu.freeFrame = none →
    t.phu.state = .waitFrame ∧ t.phu.nextSerial = s.phu.nextSerial ∧ t.sensorDrive = .stopped

/-- The event of an exposure's start (R154): FRAMES_FULL rises when the last FREE slot is taken. -/
def State.startRises (s : State) : List EventBody :=
  if s.phu.freeFrame = some 1 ∨ (s.phu.freeFrame = some 0 ∧ s.phu.slots[(1 : Fin 2)].state ≠ .free) then
    s.edge .framesFull true
  else []

/-! ### Faults and stalls -/

/-- The head has entered FAULT between two states of one tick (R98), the inputs now `pins`: its record, its event behind the
fall of HEAD_IDLE, and what its owner does (R13, R15, R158); an unowned head leaves the other blocks alone. -/
structure HeadFaulted (reason : HeadFault) (following : Int) (pins : Pins) (s t : State) : Prop where
  head   : t.hdu = { s.hdu with
    state := .fault, faultReason := reason, owner := .none, slewTimer := none, settleTimer := none,
    lastFollowing := following }
  others : t.pins = pins ∧ t.lec = s.lec ∧ t.cal = s.cal ∧ t.tbu = s.tbu
  event  : Reported ((if s.hdu.state = .idle then s.edge .headIdle false else [])
    ++ .headFault reason s.hdu.state s.hdu.owner s.hdu.target pins.headCount following
      :: (if s.hdu.owner = .photo then s.discardFalls else [])) s t
  free   : s.hdu.owner = .none → t.inner = ((s.setPins pins).setHdu t.hdu).inner ∧ Arbited s t
  sweep  : s.hdu.owner = .sweep → s.interruptible → Interrupted .headFault s t
  second : s.hdu.owner = .sweep → ¬ s.interruptible → t.scu = s.scu
  photo  : s.hdu.owner = .photo → s.phu.state ≠ .idle → RunEnded .interrupted .headFault s t

/-- The mirror has entered STALLED between two states of one tick (R81), the inputs now `pins`: its record, the falls of the
conditions before its event, the lease that its coarse lock carried (R108, R116), and what its owner does (R158). -/
structure MirrorStalled (reason : StallReason) (pins : Pins) (s t : State) : Prop where
  mirror : { t.mdu with owner := s.mdu.owner } = { s.mdu.cleared with state := .stalled, stallReason := reason }
  others : t.pins = pins ∧ t.cal = s.cal ∧ t.tbu = s.tbu
  events : Reported (s.mirrorFalls
    ++ .mirrorStall reason s.mdu.state s.mdu.owner s.mdu.setSpeed s.mdu.lastPeriod
      :: (if s.mdu.owner = .photo then s.discardFalls else [])) s t
  free   : s.mdu.owner = .none → t.mdu.owner = .none ∧ (s.mdu.state.coarseLock = false →
    t.inner = ((s.setPins pins).setMdu t.mdu).inner ∧ Arbited s t)
  lease  : s.mdu.state.coarseLock = true → s.lec.satisfied = true → s.lec.state = .leased →
    t.lec = { s.lec with
      state := .lockedOut, satisfied := false, token := none, expiry := none, lastEnd := .interlock } ∧
    (s.interruptible → Interrupted .interlock s t)
  photo  : s.mdu.owner = .photo → s.phu.state ≠ .idle → RunEnded .interrupted .mirrorStall s t

/-! ### Calibration -/

/-- Where CAL_REVERT takes page `p` from: not selected, from the working page itself; selected, from the store page when that is
valid, else from the factory defaults (R126, R130). -/
def Cal.revertSource (c : Cal) (m : PageMask) (p : Fin 5) : Pages :=
  if m.has p then if c.pageValid p then c.stored else Pages.defaults else c.working

/-! ### Invariants -/

/-- The emission record agrees with the interlock's inputs and holds a lease exactly in LEASED (R106 to R110): the fire gate,
which is open in LEASED alone (R115), is open only with ILK HIGH and the mirror in COARSE or FINE. -/
structure LaserSafe (s : State) : Prop where
  interlock : s.lec.satisfied = s.interlockHolds
  lockedOut : s.lec.state = .lockedOut ↔ s.lec.satisfied = false
  leased    : s.lec.state = .leased → ∃ n t, s.lec.token = some n ∧ n ≠ 0 ∧ s.lec.expiry = some t ∧
                1 ≤ s.lec.duration ∧ s.lec.duration ≤ 60
  unleased  : s.lec.state ≠ .leased → s.lec.token = none ∧ s.lec.expiry = none
  nextToken : s.lec.nextToken ≠ 0

/-- While the blocks work, the emission record is safe; a part without supply or held in reset fires nothing (R181). -/
def State.laserSafe (s : State) : Prop := s.phase.up = true → LaserSafe s

/-- The queues and counters stay within the sizes the spec gives them. -/
structure Bounded (s : State) : Prop where
  replies  : s.lnk.replies.length ≤ 4
  events   : s.evr.queue.length ≤ 16
  lost     : s.evr.lost ≤ 255
  fireLog  : s.rtu.fireLog.length ≤ 32
  gaps     : s.scu.gaps.entries.length ≤ 16
  record   : s.rtu.rxRecordError ≤ 65535 ∧ s.rtu.rxOverrun ≤ 65535 ∧ s.rtu.strayRecords ≤ 65535
  link     : s.lnk.crcErrors ≤ 65535 ∧ s.lnk.overruns ≤ 65535
  mirror   : s.mdu.coarseRun ≤ 16 ∧ s.mdu.fineRun ≤ 64 ∧ s.mdu.lastPeriod ≤ 4294967295
  sweepEnd : s.las.sweepEnds ≤ 8

/-- The images of the frame store are in canonical form (log 21). -/
def State.imagesWf (s : State) : Prop := ∀ i : Fin 2, PixelList.wf s.phu.slots[i].image = true

/-- At most one slot is FILLING, and only while the Scan Control Unit is SCANNING or CLOSING (R26). -/
structure OneFilling (s : State) : Prop where
  unique : ∀ i j : Fin 8, s.las.slots[i].state = .filling → s.las.slots[j].state = .filling → i = j
  active : ∀ i : Fin 8, s.las.slots[i].state = .filling → s.scu.state = .scanning ∨ s.scu.state = .closing

/-- While the part runs, an idle lane means that every source is empty (R172). -/
def LaneFed (s : State) : Prop := s.phase = .running → s.oba.lane = none → ∀ x, s.items x = 0

/-- The entries of a gap list are disjoint and ascending, none empty, none past offset 1,048,575 (R20). -/
def gapsWfFrom (low : Nat) : List Gap → Bool
  | [] => true
  | g :: rest => decide (low ≤ g.offset) && decide (1 ≤ g.length) && decide (g.stop ≤ headTurn) && gapsWfFrom g.stop rest

/-- A gap list as R20 says it is. -/
def GapList.wf (g : GapList) : Bool := gapsWfFrom 0 g.entries && decide (g.entries.length ≤ 16)

end Sys2Proof.Machine
end

