-- ==== Sys2Proof/Certificates/Slice0/Obligations.lean ====
section
/-! DEFINITION. The statements for the provers. -/

open Sys2Proof Sys2Proof.Machine

/-! ### The step and the queue -/

/-- A step takes the command at the front of the queue and runs it on the state with the queue's rest. -/
def Obligations.StepRunsTheFrontCommand : Prop :=
  ∀ (c : Instr) (rest : List Instr) (s : State), s.pending = c :: rest → step s = exec c (s.setPending rest)

/-- With no command waiting (the model's choice, log 1, log 2, log 5): a part that is off or held does nothing; a reset wait
that can end brings SOFT_RESET_PROCEED; else one tick passes and the events due at the new tick wait, each once. -/
def Obligations.IdleStepIsOneTick : Prop :=
  ∀ s : State, s.pending = [] →
    ((s.phase = .off ∨ s.phase = .held) → step s = .next s) ∧
    (s.resetReady = true → step s = .next (s.setPending [.softResetProceed])) ∧
    (s.phase.up = true → s.resetReady = false → ∃ t, step s = .next t ∧ t.now = s.now + 1 ∧
      t.pending.Perm (dueEvents (syncFollowing (s.setTbu { s.tbu with tick := s.tbu.tick + 1 }))) ∧
      t.scu = s.scu ∧ t.las = s.las ∧ t.rtu = s.rtu ∧ t.pfm = s.pfm ∧ t.mdu = s.mdu ∧ t.lec = s.lec ∧ t.cal = s.cal ∧
      t.phu = s.phu ∧ t.lnk = s.lnk ∧ t.evr = s.evr ∧ t.oba = s.oba ∧ t.pins = s.pins ∧ t.phase = s.phase)

/-- Every command answers a next state, and leaves the queue of commands as it stands. -/
def Obligations.EveryCommandAnswersAndKeepsTheQueue : Prop :=
  ∀ (c : Instr) (s : State), ∃ t, exec c s = .next t ∧ t.pending = s.pending

/-! ### Invariants -/

/-- Whatever step is taken, the fire gate stays under the interlock: LEASED only with ILK HIGH and the mirror in COARSE or
FINE, under a token and an expiry, while the blocks work. -/
def Obligations.LaserStaysSafeAtEveryStep : Prop :=
  ∀ s t : State, s.laserSafe → step s = .next t → t.laserSafe

/-- No step takes a queue or a counter past its size. -/
def Obligations.SizesStayBoundedAtEveryStep : Prop :=
  ∀ s t : State, Bounded s → step s = .next t → Bounded t

/-- No step leaves an idle lane with an item waiting while the part runs. -/
def Obligations.LaneStaysFedAtEveryStep : Prop :=
  ∀ s t : State, LaneFed s → step s = .next t → LaneFed t

/-- Whatever step is taken, at most one slot is FILLING, and only while the Scan Control Unit is SCANNING or CLOSING. -/
def Obligations.OneLineFillsAtEveryStep : Prop :=
  ∀ s t : State, OneFilling s → step s = .next t → OneFilling t

/-- After reset the part is safe and bounded, its gap list well formed, its images in canonical form, no slot FILLING. -/
def Obligations.ResetStateMeetsTheInvariants : Prop :=
  State.reset.laserSafe ∧ Bounded State.reset ∧ State.reset.scu.gaps.wf = true ∧ State.reset.imagesWf ∧
    OneFilling State.reset ∧ LaneFed State.reset

/-- The values after a power-on reset, block by block: every field to which a rule gives one, and the levels of the
conditions. The ILK level, the driver fault inputs and the encoder counts are inputs, to which no rule gives a value (log 6,
log 7). That `State.reset` stands on a store with every page erased is the model's choice (log 8, log 9); on such a store the
rules give the working pages, unsaved flags and defaulted mask stated here: defaults in all five pages, every flag set,
mask 31. -/
def Obligations.ResetStateHoldsTheRulesValues : Prop :=
  State.reset.scu = {
    state := .idle, sweepId := 0, kind := .full, profile := Profile.default, a0 := 0, lines := 0, k := 0, clean := 0,
    flagged := 0, lostNoLock := 0, lostNoSlot := 0, result := .none, endCause := .none, startTick := 0, endTick := 0,
    prepareTimer := none, gaps := { entries := [], reference := 0, overflow := false, lastChanger := 0 } } ∧
  (∀ i : Fin 8, State.reset.las.slots[i].state = .free) ∧ State.reset.las.position = 0 ∧ State.reset.las.source = [] ∧
  State.reset.rtu.fireLog = [] ∧ State.reset.rtu.nextSeq = 0 ∧ State.reset.rtu.holding = none ∧
  State.reset.rtu.matcher = .matching ∧ State.reset.rtu.rxRecordError = 0 ∧ State.reset.rtu.rxOverrun = 0 ∧
  State.reset.rtu.strayRecords = 0 ∧ State.reset.pfm = none ∧
  State.reset.mdu = {
    state := .stopped, setSpeed := 2, coarseRun := 0, fineRun := 0, measurementStart := none, switchMark := false,
    lastPeriod := 0, parkTarget := 0, owner := .none, stallReason := .none, spinupTimer := none, watchdog := none,
    parkTimer := none, parkSettle := none, parkExcursion := none } ∧
  State.reset.hdu = {
    state := .unpowered, owner := .none, faultReason := .none, target := 0, direction := .positive, rate := 0,
    referenceStart := none, lastFollowing := 0, slewTimer := none, settleTimer := none } ∧
  State.reset.lec = {
    state := .lockedOut, ilkHigh := State.reset.lec.ilkHigh, satisfied := false, token := none, expiry := none,
    duration := 0, nextToken := 1, lastEnd := .none } ∧
  State.reset.cal.state = .loading ∧ State.reset.cal.commitMask = 0 ∧ State.reset.cal.page = none ∧
  State.reset.cal.pageWriteEnd = none ∧ State.reset.cal.outcomes = [] ∧ State.reset.cal.lastCommit = none ∧
  State.reset.cal.working = {
    vangle := Vector.replicate 64 0, hangle := Vector.replicate 64 0, rangeOffset := 0, walk := Vector.replicate 16 0,
    cameraAzimuth := 0, cameraElevation := 0, banks := Vector.replicate 4 Profile.default } ∧
  State.reset.cal.unsaved = 31 ∧ State.reset.cal.defaulted = 31 ∧
  (∀ i : Fin 32, State.reset.phu.stations[i].state = .empty) ∧ State.reset.phu.state = .idle ∧
  State.reset.phu.runList = [] ∧ State.reset.phu.position = 0 ∧ State.reset.phu.exposure = 0 ∧
  State.reset.phu.slotInUse = none ∧ State.reset.phu.positioningEnd = none ∧ State.reset.phu.phaseEnd = none ∧
  State.reset.phu.done = 0 ∧ State.reset.phu.missed = 0 ∧ State.reset.phu.readOut = 0 ∧
  State.reset.phu.result = .none ∧ State.reset.phu.endCause = .none ∧ State.reset.phu.nextSerial = 0 ∧
  (∀ i : Fin 2, State.reset.phu.slots[i].state = .free) ∧ State.reset.phu.source = [] ∧
  State.reset.lnk.rx = .hunt ∧ State.reset.lnk.sawC3 = false ∧ State.reset.lnk.assembly = [] ∧
  State.reset.lnk.holding = none ∧ State.reset.lnk.replies = [] ∧ State.reset.lnk.crcErrors = 0 ∧ State.reset.lnk.overruns = 0 ∧
  State.reset.evr.queue = [] ∧ State.reset.evr.lost = 0 ∧
  State.reset.evr.setting .mirrorCoarse = .none ∧ State.reset.evr.setting .mirrorFine = .both ∧
  State.reset.evr.setting .interlockOk = .both ∧ State.reset.evr.setting .emitLeased = .both ∧
  State.reset.evr.setting .headIdle = .none ∧ State.reset.evr.setting .timebaseExternal = .both ∧
  State.reset.evr.setting .ringHigh = .none ∧ State.reset.evr.setting .framesFull = .none ∧
  State.reset.oba.eventLevel = 2 ∧ State.reset.oba.lineLevel = 1 ∧ State.reset.oba.tileLevel = 0 ∧
  State.reset.oba.lane = none ∧ State.reset.tbu = { tick := 0, source := .fallback, referencePresent := false } ∧
  State.reset.resetCause = .powerOn ∧ ∀ c : Condition, c.level State.reset = false

/-! ### Frames and bytes -/

/-- The nine characters "123456789" give the check 29B1h. -/
def Obligations.CheckOfTheNineDigits : Prop :=
  crc16 [0x31, 0x32, 0x33, 0x34, 0x35, 0x36, 0x37, 0x38, 0x39] = 0x29B1#16

/-- Every frame comes through the receiver whole: its bytes, arriving in HUNT, leave the part as the frame itself, offered to
the holding buffer, leaves it. -/
def Obligations.FrameBytesComeThroughTheReceiver : Prop :=
  ∀ (f : Frame) (s : State), f.payload.length ≤ 4096 → s.phase = .running → s.lnk.rx = .hunt →
    exec (.inboundFrameComplete f.bytes) s = .next (receiveFrame f s)

/-- The receiver: a sync pair in HUNT empties the assembly buffer and leads to HEADER; a second length byte that makes the
length exceed 4,096 discards the frame, counts it, and leads to HUNT; so does a frame whose check fails; and in the middle of a
frame the bytes of a further one are taken as the rest of the first, whichever host command row brings them. -/
def Obligations.ReceiverEventsMoveTheReceiver : Prop :=
  ∀ s : State, s.phase = .running →
    (s.lnk.rx = .hunt → exec (.syncPairFound [0xC3, 0x5A]) s =
      .next (s.setLnk { s.lnk with rx := .header, sawC3 := false, assembly := [] })) ∧
    (∀ kind tag low high : Byte, s.lnk.rx = .header → s.lnk.assembly = [kind, tag, low] →
      4096 < low.toNat + 256 * high.toNat →
      exec (.lengthAbove4096 [high]) s = .next (s.setLnk { s.lnk with
        rx := .hunt, sawC3 := false, assembly := [], crcErrors := satInc 65535 s.lnk.crcErrors })) ∧
    (∀ (f : Frame) (low high : Byte), s.lnk.rx = .hunt → f.payload.length ≤ 4096 →
      low.toNat + 256 * high.toNat ≠ (crc16 f.checked).toNat →
      exec (.inboundFrameComplete (0xC3 :: 0x5A :: (f.checked ++ [low, high]))) s = .next (s.setLnk { s.lnk with
        rx := .hunt, sawC3 := false, assembly := [], crcErrors := satInc 65535 s.lnk.crcErrors })) ∧
    (∀ (tag kind : Byte) (payload : List Byte), s.lnk.rx ≠ .hunt →
      (∀ c : HostCmd, exec (hostRow tag c) s = exec (.inboundFrameComplete (hostFrame tag c).bytes) s) ∧
      exec (.unknownKind tag kind payload) s =
        exec (.inboundFrameComplete (Frame.bytes { kind := kind, tag := tag, payload := payload })) s)

/-- The first two judgements of the dispatcher. A frame of a kind outside the catalogue is answered with kind FFh, status
UNKNOWN_KIND and the received kind; one of a command kind whose length does not fit it, with the command's reply kind, status
BAD_LENGTH and the received length, and no reset takes place; a STATION_SET row of a count or of exposures that do not fit is such
a frame. Nothing else changes: no event, no other reply, no other source. -/
def Obligations.UnknownKindIsAnswered : Prop :=
  ∀ (tag kind : Byte) (payload : List Byte) (s : State), Accepts s →
    (¬ (1 ≤ kind.toNat ∧ kind.toNat ≤ 28) → payload.length ≤ 4096 →
      ∃ t, exec (.unknownKind tag kind payload) s = .next t ∧ t.inner = s.inner ∧ Undisturbed s t ∧
        Answered s t { kind := 0xFF, tag := tag, payload := [0x06, kind] }) ∧
    (1 ≤ kind.toNat → kind.toNat ≤ 28 → payload.length ≤ 4096 → ¬ LengthFits kind payload →
      ∃ t, exec (.inboundFrameComplete (Frame.bytes { kind := kind, tag := tag, payload := payload })) s = .next t ∧
        t.inner = s.inner ∧ Undisturbed s t ∧
        Answered s t { kind := kind + 0x80, tag := tag, payload := 0x07 :: le 2 payload.length }) ∧
    (∀ (station count : Byte) (az : BitVec 24) (el : Half) (es : List (BitVec 24 × Byte)), 7 + 4 * es.length ≤ 4096 →
      (es.length < 1 ∨ 3 < es.length ∨ (1 ≤ count.toNat ∧ count.toNat ≤ 3 ∧ count.toNat ≠ es.length)) →
      ∃ t, exec (.stationSet tag station az el count es) s = .next t ∧ t.inner = s.inner ∧ Undisturbed s t ∧
        Answered s t { kind := 0x95, tag := tag, payload := 0x07 :: le 2 (7 + 4 * es.length) })

/-- Whatever the command and the state, a refusal (a reply whose status is not OK) leaves the state as it was. -/
def Obligations.RefusedCommandsChangeNothing : Prop :=
  ∀ (c : HostCmd) (s : State) (st : Status) (body : List Byte),
    (runHost c s).reply = some (st, body) → st ≠ .ok → (runHost c s).state = s ∧ (runHost c s).told = []

/-! ### Outbound -/

/-- The choice at a boundary: the non-empty source with the highest level, among equals the lowest number; none when every
source is empty. -/
def Obligations.ArbiterTakesTheHighestLevel : Prop :=
  ∀ s : State, (s.chosen = none ↔ ∀ x, s.items x = 0) ∧
    ∀ x, s.chosen = some x ↔ 0 < s.items x ∧ ∀ y, 0 < s.items y →
      s.oba.level y < s.oba.level x ∨ (s.oba.level y = s.oba.level x ∧ x.ctorIdx ≤ y.ctorIdx)

/-- A change of a condition is appended, with the lane busy, exactly when its setting selects it; a full event queue drops and
counts it; with the lane idle and every source empty its frame begins at once, carrying lost_events, which becomes 0. -/
def Obligations.EventQueueTakesSelectedChanges : Prop :=
  ∀ (c : Condition) (level : Bool) (s : State),
    ((s.evr.setting c).selects level = false → reportEdge c level s = s) ∧
    ((s.evr.setting c).selects level = true → s.evr.queue.length < 16 → s.oba.lane ≠ none →
      reportEdge c level s = s.setEvr { s.evr with queue := s.evr.queue ++ [{ body := .condition c level, tick := s.now }] }) ∧
    ((s.evr.setting c).selects level = true → 16 ≤ s.evr.queue.length →
      reportEdge c level s = s.setEvr { s.evr with lost := satInc 255 s.evr.lost }) ∧
    ((s.evr.setting c).selects level = true → s.phase = .running → s.oba.lane = none → (∀ x, s.items x = 0) →
      reportEdge c level s = (s.setEvr { s.evr with lost := 0 }).setOba { s.oba with
        lane := some { item := .event, endTick := ticksAfter s.now 36
                       frame := { kind := 0xC1, tag := 0,
                                  payload := byte 0 ++ byte s.evr.lost ++ le 6 s.now.toNat
                                    ++ (byte c.index.val ++ flag level) } } })

/-- The last byte of a frame is sent. The end of a reply, report or event begins the next frame of the chosen source's head
item, a reply or an event leaving its queue, or the lane goes idle; a command that waits is taken as a reply leaves. The end of a
chunk or a frame part counts it at its slot (here a reply follows); after the last one the slot is FREE and leaves its source,
RING_HIGH or FRAMES_FULL falls, and an exposure that waits starts in the frame slot. -/
def Obligations.FrameEndBeginsTheNextFrame : Prop :=
  ∀ (s : State) (x : Sending), s.phase = .running → s.oba.lane = some x → x.endTick = s.now →
    ((x.item = .ready ∨ x.item = .reply ∨ x.item = .event ∨ x.item = .sweepEnd ∨ x.item = .tileReport) →
      (s.lnk.holding = none →
        (∀ f rest, s.lnk.replies = f :: rest →
          exec .outboundFrameEnd s = .next ((s.setLnk { s.lnk with replies := rest }).setOba { s.oba with
            lane := some { item := .reply, frame := f, endTick := ticksAfter s.now (2 * (f.payload.length + 8)) } })) ∧
        (∀ e rest, s.evr.queue = e :: rest → s.chosen = some .event →
          exec .outboundFrameEnd s = .next ((s.setEvr { s.evr with queue := rest, lost := 0 }).setOba { s.oba with
            lane := s.laneWith .event (report 0xC1 (e.payload s.evr.lost)) })) ∧
        (∀ i rest, s.las.source = .slot i :: rest → s.chosen = some .line →
          exec .outboundFrameEnd s = .next ((s.setSlot i { s.las.slots[i] with state := .draining }).setOba { s.oba with
            lane := s.laneWith (.lineChunk i)
              (report 0xC2 (s.las.slots[i].chunkPayload s.las.slots[i].chunksSent)) })) ∧
        (∀ r rest, s.las.source = .sweepEnd r :: rest → s.chosen = some .line →
          exec .outboundFrameEnd s = .next ((s.setLas { s.las with source := rest }).setOba { s.oba with
            lane := s.laneWith .sweepEnd (report 0xC3 r.payload) })) ∧
        (∀ i rest, s.phu.source = .frame i :: rest → s.chosen = some .tile →
          exec .outboundFrameEnd s = .next ((s.setFrame i { s.phu.slots[i] with state := .draining }).setOba { s.oba with
            lane := s.laneWith (.framePart i)
              (if s.phu.slots[i].framesSent = 0 then report 0xC4 s.phu.slots[i].beginPayload
               else report 0xC5 (s.phu.slots[i].tilePayload (s.phu.slots[i].framesSent - 1))) })) ∧
        (∀ r rest, s.phu.source = .stationDone r :: rest → s.chosen = some .tile →
          exec .outboundFrameEnd s = .next ((s.setPhu { s.phu with source := rest }).setOba { s.oba with
            lane := s.laneWith .tileReport (report 0xC6 r.payload) })) ∧
        (∀ r rest, s.phu.source = .runEnd r :: rest → s.chosen = some .tile →
          exec .outboundFrameEnd s = .next ((s.setPhu { s.phu with source := rest }).setOba { s.oba with
            lane := s.laneWith .tileReport (report 0xC7 r.payload) })) ∧
        ((∀ y, s.items y = 0) → exec .outboundFrameEnd s = .next (s.setOba { s.oba with lane := none }))) ∧
      (∀ f rest, s.lnk.replies = f :: rest → rest.length < 4 → ∀ g, s.lnk.holding = some g →
        exec .outboundFrameEnd s = .next (takeFrame g
          ((s.setLnk { s.lnk with replies := rest, holding := none }).setOba { s.oba with
            lane := s.laneWith .reply f })))) ∧
    (∀ f rest, s.lnk.replies = f :: rest → s.lnk.holding = none →
      (∀ i, x.item = .lineChunk i → s.las.slots[i].chunksSent + 1 < s.las.slots[i].chunks.length →
        exec .outboundFrameEnd s = .next (((s.setSlot i { s.las.slots[i] with
          chunksSent := s.las.slots[i].chunksSent + 1 }).setLnk { s.lnk with replies := rest }).setOba { s.oba with
          lane := s.laneWith .reply f })) ∧
      (∀ i, x.item = .lineChunk i → s.las.slots[i].chunks.length ≤ s.las.slots[i].chunksSent + 1 →
        ∃ t, exec .outboundFrameEnd s = .next t ∧ t.las.slots[i].state = .free ∧
          (∀ j, j ≠ i → t.las.slots[j] = s.las.slots[j]) ∧ t.las.source = s.las.source.tail ∧
          t.las.position = s.las.position ∧ t.inner = s.inner ∧ t.phu = s.phu ∧ t.lnk = { s.lnk with replies := rest } ∧
          t.oba = { s.oba with lane := s.laneWith .reply f } ∧
          (s.las.slots[i].state ≠ .free →
            t.evr = (if s.las.notFree = 6 then s.edge .ringHigh false else []).foldl (Evr.take s.now) s.evr)) ∧
      (∀ i, x.item = .framePart i → s.phu.slots[i].framesSent < 1536 →
        exec .outboundFrameEnd s = .next (((s.setFrame i { s.phu.slots[i] with
          framesSent := s.phu.slots[i].framesSent + 1 }).setLnk { s.lnk with replies := rest }).setOba { s.oba with
          lane := s.laneWith .reply f })) ∧
      (∀ i, x.item = .framePart i → s.phu.slots[i].framesSent = 1536 →
        ∃ t, exec .outboundFrameEnd s = .next t ∧ (∀ j, j ≠ i → t.phu.slots[j] = s.phu.slots[j]) ∧
          t.phu.source = s.phu.source.tail ∧ t.inner = s.inner ∧ t.las = s.las ∧ t.lnk = { s.lnk with replies := rest } ∧
          t.oba = { s.oba with lane := s.laneWith .reply f } ∧
          (s.phu.state ≠ .waitFrame → t.phu.slots[i].state = .free ∧ t.phu.state = s.phu.state ∧
            t.evr = (if s.phu.freeFrame = none then s.edge .framesFull false else []).foldl (Evr.take s.now) s.evr) ∧
          (∀ st e, s.phu.current = some st → s.phu.stations[st].exposures[s.phu.exposure]? = some e →
            s.phu.state = .waitFrame → s.phu.freeFrame = none →
            t.phu.state = .exposing ∧ t.phu.slotInUse = some i ∧
            t.phu.phaseEnd = some (ticksAfter s.now (e.time * 40)) ∧ t.phu.nextSerial = s.phu.nextSerial + 1 ∧
            t.phu.slots[i].state = .exposing ∧ t.phu.slots[i].serial = s.phu.nextSerial ∧
            t.phu.slots[i].station = st ∧ t.phu.slots[i].exposure = s.phu.exposure ∧
            t.evr = (s.edge .framesFull false ++ s.edge .framesFull true).foldl (Evr.take s.now) s.evr)))

/-- The chunks of a line: whole points in list order, at most 4,064 bytes a chunk, as many as fit in each but the last, one
empty chunk for an empty list; so a chunk's payload is at most 4,096 bytes. -/
def Obligations.ChunksHoldWholePointsGreedily : Prop :=
  ∀ sl : LineSlot, (∀ p ∈ sl.points, p.echoes.length ≤ 4) →
    sl.chunks.flatten = sl.points ∧ (sl.points = [] → sl.chunks = [[]]) ∧
    (∀ c ∈ sl.chunks, (c.map Point.size).sum ≤ 4064) ∧
    (∀ i c p rest, sl.chunks[i]? = some c → sl.chunks[i + 1]? = some (p :: rest) →
      4064 < (c.map Point.size).sum + p.size) ∧
    ∀ i, (sl.chunkPayload i).length ≤ 4096

/-! ### The gap list -/

/-- The subtraction never loses a gap: an offset that was gap and lies outside the interval stays gap, none becomes gap; on a
well-formed list with room the offsets of the interval are cleared, and the list stays well formed. -/
def Obligations.GapSubtractionIsExact : Prop :=
  ∀ (g : GapList) (id : Serial) (o n x : Nat),
    (g.covers x = true → ¬ (o ≤ x ∧ x < o + n) → (g.subtract id o n).covers x = true) ∧
    ((g.subtract id o n).covers x = true → g.covers x = true) ∧
    (g.wf = true → (g.subtract id o n).wf = true) ∧
    (g.wf = true → g.entries.length < 16 → o ≤ x → x < o + n → (g.subtract id o n).covers x = false)

/-- The addition of an interval at or above every entry's end: every old gap and every offset of the interval is gap after it,
the list stays well formed, and overflow is set exactly when it already was or a seventeenth entry was needed. -/
def Obligations.GapAdditionCovers : Prop :=
  ∀ (g : GapList) (id : Serial) (o n x : Nat), g.wf = true → (∀ e ∈ g.entries, e.stop ≤ o) → 1 ≤ n → o + n ≤ headTurn →
    ((g.covers x = true ∨ (o ≤ x ∧ x < o + n)) → (g.add id o n).covers x = true) ∧
    (g.add id o n).wf = true ∧ (g.add id o n).lastChanger = id ∧
    ((g.add id o n).overflow = true ↔
      g.overflow = true ∨ (g.entries.length = 16 ∧ ∀ e, g.entries.getLast? = some e → e.stop ≠ o))

/-! ### Status, profiles and calibration -/

/-- The reading commands, taken, answer what they read and change nothing; STATUS_QUERY with its clear flag answers the five
error counters as they stood and makes them 0. -/
def Obligations.ReadingCommandsAnswer : Prop :=
  ∀ (tag : Byte) (s : State), Accepts s →
    (∃ t, exec (.statusQuery tag 0) s = .next t ∧ t.inner = s.inner ∧ Undisturbed s t ∧
      Answered s t { kind := 0x81, tag := tag, payload := 0x00 :: statusBody s.listening }) ∧
    (∀ (bank : Byte) (p : Profile), s.cal.working.banks[bank.toNat]? = some p →
      ∃ t, exec (.profileGet tag bank) s = .next t ∧ t.inner = s.inner ∧ Undisturbed s t ∧
        Answered s t { kind := 0x84, tag := tag,
                       payload := 0x00 :: (p.bytes ++ le 2 p.windowLength ++ le 3 p.emissionRate) }) ∧
    (∃ t, exec (.gapsGet tag) s = .next t ∧ t.inner = s.inner ∧ Undisturbed s t ∧
      Answered s t { kind := 0x87, tag := tag, payload := 0x00 :: (le 3 s.scu.gaps.reference.toNat
        ++ flag s.scu.gaps.overflow ++ le 2 s.scu.gaps.lastChanger.toNat ++ byte s.scu.gaps.entries.length
        ++ s.scu.gaps.entries.flatMap fun g => le 3 g.offset ++ le 3 g.length) }) ∧
    (∀ (page : Byte) (body : List Byte), pageBytes s.cal.working page.toNat = some body →
      ∃ t, exec (.calGet tag page) s = .next t ∧ t.inner = s.inner ∧ Undisturbed s t ∧
        Answered s t { kind := 0x92, tag := tag, payload := 0x00 :: (byte page.toNat
          ++ flag (s.cal.unsaved.has (pageOf page.toNat)) ++ body) }) ∧
    (∀ (station : Byte) (x : Station), s.phu.stations[station.toNat]? = some x →
      ∃ t, exec (.stationGet tag station) s = .next t ∧ t.inner = s.inner ∧ Undisturbed s t ∧
        Answered s t { kind := 0x97, tag := tag, payload := 0x00 :: x.bytes }) ∧
    (∃ t, exec (.statusQuery tag 1) s = .next t ∧
      t.inner = (s.setRtu { s.rtu with rxRecordError := 0, rxOverrun := 0, strayRecords := 0 }).inner ∧ Undisturbed s t ∧
      t.lnk.crcErrors = 0 ∧ t.lnk.overruns = 0 ∧
      ReplyOut t { kind := 0x81, tag := tag, payload := 0x00 :: statusBody s.listening })

/-- PROFILE_SET, with every field in range and the store not WRITING, replaces the seven fields of the bank and marks page 4
unsaved; the reply carries L and the emission rate rounded down. -/
def Obligations.ProfileSetReplacesTheBank : Prop :=
  ∀ (tag : Byte) (bank : Fin 4) (p : Profile) (s : State), Accepts s → s.cal.state ≠ .writing →
    512 ≤ p.windowStart → p.windowStart ≤ p.windowEnd → p.windowEnd ≤ 15871 → 1 ≤ p.azStep → p.azStep ≤ 4096 →
    p.pulses.toNat ≤ p.windowEnd + 1 - p.windowStart →
    p.pulses.toNat * doubleRevs p.speed * 16384 ≤ 2000000 * (p.windowEnd + 1 - p.windowStart) →
    ∃ t, exec (.profileSet tag (BitVec.ofNat 8 bank.val) (BitVec.ofNat 8 p.speed.val) (BitVec.ofNat 16 p.pulses.toNat)
        (BitVec.ofNat 16 p.windowStart) (BitVec.ofNat 16 p.windowEnd) (BitVec.ofNat 16 p.azStep)
        (BitVec.ofNat 8 p.echoMode.ctorIdx) (if p.keepEmpty then 1 else 0)) s = .next t ∧
      t.inner = (s.setCal { s.cal with
        working := { s.cal.working with banks := s.cal.working.banks.set bank.val p bank.isLt },
        unsaved := s.cal.unsaved.add 4 }).inner ∧
      Undisturbed s t ∧
      Answered s t { kind := 0x83, tag := tag, payload := 0x00 :: (le 2 (p.windowEnd + 1 - p.windowStart)
        ++ le 3 (p.pulses.toNat * doubleRevs p.speed * 16384 / (2 * (p.windowEnd + 1 - p.windowStart)))) }

/-- PROFILE_SET over the emission limit is refused with RANGE, compared exactly; one that passes its checks while the store is
WRITING is refused with BUSY; RANGE comes first. -/
def Obligations.ProfileSetRefusesInOrder : Prop :=
  ∀ (tag bank speed echoMode keepEmpty : Byte) (pulses ws we az : Half) (s : State), Accepts s →
    (∀ (v : Fin 4), speed.toNat = v.val → ws.toNat ≤ we.toNat →
      2000000 * (we.toNat + 1 - ws.toNat) < pulses.toNat * doubleRevs v * 16384 →
      ∃ t, exec (.profileSet tag bank speed pulses ws we az echoMode keepEmpty) s = .next t ∧ t.inner = s.inner ∧
        Undisturbed s t ∧ Answered s t { kind := 0x83, tag := tag, payload := [0x02] }) ∧
    (bank.toNat < 4 → profileOf speed pulses ws we az echoMode keepEmpty ≠ none → s.cal.state = .writing →
      ∃ t, exec (.profileSet tag bank speed pulses ws we az echoMode keepEmpty) s = .next t ∧ t.inner = s.inner ∧
        Undisturbed s t ∧ Answered s t { kind := 0x83, tag := tag, payload := [0x03] })

/-- CAL_SET of an addressed value within its range, with no sweep and no photo run in progress and the store not WRITING,
replaces that value in the working page, sets the page's unsaved flag, and answers the value now held and the one replaced. -/
def Obligations.CalSetReplacesOneValue : Prop :=
  ∀ (tag page index : Byte) (value : Half) (old : CalValue) (s : State), Accepts s →
    calValueAt s.cal.working page.toNat index.toNat = some old → old.low ≤ value.toInt → value.toInt ≤ old.high →
    s.scu.state = .idle → s.phu.state = .idle → s.cal.state ≠ .writing →
    ∃ t, exec (.calSet tag page index value) s = .next t ∧
      t.inner = (s.setCal { s.cal with
        working := calWrite s.cal.working page.toNat index.toNat value.toInt,
        unsaved := s.cal.unsaved.add (pageOf page.toNat) }).inner ∧
      calValueAt t.cal.working page.toNat index.toNat = some { old with held := value.toInt } ∧
      Undisturbed s t ∧
      Answered s t { kind := 0x91, tag := tag, payload := 0x00 :: (byte page.toNat ++ byte index.toNat
        ++ leInt 2 value.toInt ++ leInt 2 old.held) }

/-- CAL_REVERT loads the selected pages, a valid store page or else the defaults, and answers the mask and the defaulted mask; a
page that is not selected keeps its values. -/
def Obligations.CalRevertLoadsTheSelectedPages : Prop :=
  ∀ (tag mask : Byte) (s : State), Accepts s → 1 ≤ mask.toNat → mask.toNat ≤ 31 → s.scu.state = .idle →
    s.phu.state = .idle → s.cal.state ≠ .writing →
    ∃ t, exec (.calRevert tag mask) s = .next t ∧ t.inner = (s.setCal (s.cal.load (mask.setWidth 5))).inner ∧
      Undisturbed s t ∧
      Answered s t { kind := 0x94, tag := tag, payload := 0x00 :: (byte mask.toNat
        ++ byte (s.cal.load (mask.setWidth 5)).defaulted.toNat) } ∧
      t.cal.working.vangle = (s.cal.revertSource (mask.setWidth 5) 0).vangle ∧
      t.cal.working.hangle = (s.cal.revertSource (mask.setWidth 5) 1).hangle ∧
      t.cal.working.rangeOffset = (s.cal.revertSource (mask.setWidth 5) 2).rangeOffset ∧
      t.cal.working.walk = (s.cal.revertSource (mask.setWidth 5) 2).walk ∧
      t.cal.working.cameraAzimuth = (s.cal.revertSource (mask.setWidth 5) 3).cameraAzimuth ∧
      t.cal.working.cameraElevation = (s.cal.revertSource (mask.setWidth 5) 3).cameraElevation ∧
      t.cal.working.banks = (s.cal.revertSource (mask.setWidth 5) 4).banks

/-- CAL_COMMIT begins the write of the lowest selected page: 25 ms, the invalid mark set, the store WRITING. -/
def Obligations.CalCommitBeginsTheLowestPage : Prop :=
  ∀ (tag mask : Byte) (p : Fin 5) (s : State), Accepts s → 1 ≤ mask.toNat → mask.toNat ≤ 31 → s.cal.state ≠ .writing →
    PageMask.has (mask.setWidth 5) p = true → (∀ q : Fin 5, q < p → PageMask.has (mask.setWidth 5) q = false) →
    ∃ t, exec (.calCommit tag mask) s = .next t ∧
      t.inner = (s.setCal { s.cal with
        commitMask := mask.setWidth 5, outcomes := [], state := .writing, page := some p,
        pageWriteEnd := some (ticksAfter s.now 1000000), invalid := s.cal.invalid.add p }).inner ∧
      Undisturbed s t ∧
      Answered s t { kind := 0x93, tag := tag,
                     payload := 0x00 :: (byte mask.toNat ++ byte (PageMask.pages (mask.setWidth 5)).length) }

/-- A page write that ends: OK clears the invalid mark and the unsaved flag, VERIFY_FAIL leaves both as they stand; the next
selected page begins, or the store enters IDLE with the last commit recorded and STORE_DONE appended; no other event is. -/
def Obligations.PageWriteEndGoesOn : Prop :=
  ∀ (agrees : Bool) (p : Fin 5) (s : State), s.phase = .running → s.cal.page = some p → s.cal.pageWriteEnd = some s.now →
    ∃ t, exec (.pageWriteEnd agrees) s = .next t ∧
      t.cal.stored = copyPage p s.cal.working s.cal.stored ∧ t.cal.working = s.cal.working ∧
      t.cal.unsaved = (if agrees then s.cal.unsaved.remove p else s.cal.unsaved) ∧
      (∀ q rest, s.cal.commitMask.above p = q :: rest →
        t.cal.state = s.cal.state ∧ t.cal.page = some q ∧ t.cal.pageWriteEnd = some (ticksAfter s.now 1000000) ∧
        t.cal.outcomes = s.cal.outcomes ++ [(p, agrees)] ∧
        t.cal.invalid = (if agrees then s.cal.invalid.remove p else s.cal.invalid).add q ∧ Reported [] s t) ∧
      (s.cal.commitMask.above p = [] →
        t.cal.state = .idle ∧ t.cal.page = none ∧ t.cal.pageWriteEnd = none ∧
        t.cal.lastCommit = some (s.cal.commitMask, s.cal.outcomes ++ [(p, agrees)]) ∧
        t.cal.invalid = (if agrees then s.cal.invalid.remove p else s.cal.invalid) ∧
        Reported [.storeDone s.cal.commitMask (s.cal.outcomes ++ [(p, agrees)])] s t) ∧
      t.scu = s.scu ∧ t.mdu = s.mdu ∧ t.hdu = s.hdu ∧ t.lec = s.lec ∧ t.rtu = s.rtu ∧ t.pfm = s.pfm ∧ t.tbu = s.tbu ∧
      t.pins = s.pins ∧ t.phase = s.phase ∧ Arbited s t

/-! ### Stations, subscriptions and levels -/

/-- STATION_SET within its ranges, with no run active, makes the entry PLANNED with the command's fields, whatever it held. -/
def Obligations.StationSetPlansTheStation : Prop :=
  ∀ (tag : Byte) (i : Fin 32) (az : HeadCount) (el : MirrorCount) (es : List Exposure) (s : State), Accepts s →
    s.phu.state = .idle → 1 ≤ es.length → es.length ≤ 3 →
    (∀ e ∈ es, 10 ≤ e.time ∧ e.time ≤ 500000 ∧ e.gain ≤ 7) →
    ∃ t, exec (.stationSet tag (BitVec.ofNat 8 i.val) (az.setWidth 24) (el.setWidth 16) (BitVec.ofNat 8 es.length)
        (es.map fun e => (BitVec.ofNat 24 e.time, BitVec.ofNat 8 e.gain))) s = .next t ∧
      t.inner = s.inner ∧
      Undisturbed (s.setPhu (s.phu.setStation i { state := .planned, azimuth := az, elevation := el, exposures := es })) t ∧
      Answered s t { kind := 0x95, tag := tag, payload := 0x00 :: (byte i.val ++ byte s.phu.stations[i].state.ctorIdx) }

/-- STATION_CLEAR: RANGE first, then STATE while a run is active; taken, the entry becomes EMPTY, and the reply carries the
state it held; an entry already EMPTY is not changed. An EMPTY entry's other fields stand at one fixed value (the model's choice,
log 27). -/
def Obligations.StationClearEmptiesTheEntry : Prop :=
  ∀ (tag station : Byte) (s : State), Accepts s →
    (32 ≤ station.toNat → ∃ t, exec (.stationClear tag station) s = .next t ∧ t.inner = s.inner ∧ Undisturbed s t ∧
      Answered s t { kind := 0x96, tag := tag, payload := [0x02] }) ∧
    (station.toNat < 32 → s.phu.state ≠ .idle →
      ∃ t, exec (.stationClear tag station) s = .next t ∧ t.inner = s.inner ∧ Undisturbed s t ∧
        Answered s t { kind := 0x96, tag := tag, payload := [0x01] }) ∧
    (∀ i : Fin 32, station.toNat = i.val → s.phu.state = .idle →
      ∃ t, exec (.stationClear tag station) s = .next t ∧ t.inner = s.inner ∧
        Undisturbed (s.setPhu (s.phu.setStation i Station.empty)) t ∧ t.phu.stations[i].state = .empty ∧
        (s.phu.stations[i] = Station.empty → Undisturbed s t) ∧
        Answered s t { kind := 0x96, tag := tag, payload := 0x00 :: byte s.phu.stations[i].state.ctorIdx })

/-- SUBSCRIBE sets the edge setting of one condition and answers the condition, its setting before and its current level. -/
def Obligations.SubscribeSetsTheEdge : Prop :=
  ∀ (tag : Byte) (c : Condition) (e : Edge) (s : State), Accepts s →
    ∃ t, exec (.subscribe tag (BitVec.ofNat 8 c.index.val) (BitVec.ofNat 8 e.ctorIdx)) s = .next t ∧
      t.inner = s.inner ∧ t.evr.setting c = e ∧ (∀ d, d ≠ c → t.evr.setting d = s.evr.setting d) ∧
      Undisturbed (s.setEvr { s.evr with subscriptions := s.evr.subscriptions.set c.index.val e c.index.isLt }) t ∧
      Answered s t { kind := 0x9A, tag := tag,
                     payload := 0x00 :: (byte c.index.val ++ byte (s.evr.setting c).ctorIdx ++ flag (c.level s)) }

/-- PRIORITY_SET: a source of 0 or above 3, or a level above 2, is refused with RANGE; taken, it sets the level of that source
alone and answers the source and the level it held; a frame in progress is not cut short; the levels after reset. -/
def Obligations.PrioritySetSetsTheLevel : Prop :=
  (∀ (tag source level : Byte) (s : State), Accepts s →
    ((source = 0 ∨ 3 < source.toNat ∨ 2 < level.toNat) →
      ∃ t, exec (.prioritySet tag source level) s = .next t ∧ t.inner = s.inner ∧ Undisturbed s t ∧
        Answered s t { kind := 0x9B, tag := tag, payload := [0x02] }) ∧
    (∀ l : Fin 3, level.toNat = l.val →
      (source = 1 → ∃ t, exec (.prioritySet tag source level) s = .next t ∧ t.inner = s.inner ∧
        Undisturbed (s.setOba { s.oba with eventLevel := l }) t ∧
        Answered s t { kind := 0x9B, tag := tag, payload := 0x00 :: (byte 1 ++ byte s.oba.eventLevel.val) }) ∧
      (source = 2 → ∃ t, exec (.prioritySet tag source level) s = .next t ∧ t.inner = s.inner ∧
        Undisturbed (s.setOba { s.oba with lineLevel := l }) t ∧
        Answered s t { kind := 0x9B, tag := tag, payload := 0x00 :: (byte 2 ++ byte s.oba.lineLevel.val) }) ∧
      (source = 3 → ∃ t, exec (.prioritySet tag source level) s = .next t ∧ t.inner = s.inner ∧
        Undisturbed (s.setOba { s.oba with tileLevel := l }) t ∧
        Answered s t { kind := 0x9B, tag := tag, payload := 0x00 :: (byte 3 ++ byte s.oba.tileLevel.val) })) ∧
    (∀ x, s.oba.lane = some x → ∃ t, exec (.prioritySet tag source level) s = .next t ∧ t.oba.lane = some x)) ∧
  State.reset.oba.level .reply = 3 ∧ State.reset.oba.level .event = 2 ∧ State.reset.oba.level .line = 1 ∧
    State.reset.oba.level .tile = 0

/-! ### Laser -/

/-- EMIT_REQUEST: a duration of 0 or above 60 is refused with RANGE first, then LEASED with STATE, then LOCKED_OUT with
INTERLOCK, each with the state of the controller. In OFF it issues the next token, sets the expiry and enters LEASED;
EMIT_LEASED rises (on an idle lane its frame begins ahead of the reply: the model's reading, log 16, log 22). -/
def Obligations.EmitRequestIssuesALease : Prop :=
  ∀ (tag d : Byte) (s : State), Accepts s →
    ((d.toNat < 1 ∨ 60 < d.toNat) →
      OnlyAnswered (.emitRequest tag d) s
        { kind := 0x8E, tag := tag, payload := 0x02 :: byte s.lec.state.ctorIdx }) ∧
    (1 ≤ d.toNat → d.toNat ≤ 60 → s.lec.state = .leased →
      OnlyAnswered (.emitRequest tag d) s { kind := 0x8E, tag := tag, payload := [0x01, 0x02] }) ∧
    (1 ≤ d.toNat → d.toNat ≤ 60 → s.lec.state = .lockedOut →
      OnlyAnswered (.emitRequest tag d) s { kind := 0x8E, tag := tag, payload := [0x04, 0x00] }) ∧
    (1 ≤ d.toNat → d.toNat ≤ 60 → s.lec.state = .off →
      ∃ t, exec (.emitRequest tag d) s = .next t ∧
        t.inner = (s.setLec { s.lec with
          state := .leased, token := some s.lec.nextToken, expiry := some (ticksAfter s.now (d.toNat * 40000000)),
          duration := d.toNat,
          nextToken := if s.lec.nextToken = 65535#16 then 1 else s.lec.nextToken + 1 }).inner ∧
        Arbited s t ∧ Reported (s.edge .emitLeased true) s t ∧
        Answered s t { kind := 0x8E, tag := tag, payload := 0x00 :: (le 2 s.lec.nextToken.toNat
          ++ le 6 (ticksAfter s.now (d.toNat * 40000000)).toNat ++ byte d.toNat) })

/-- EMIT_RENEW: RANGE first, then STATE in OFF and LOCKED_OUT, then TOKEN; under the token in force it gives a new token and a
new expiry, and the state stays LEASED. A token of 0 is never the token in force. -/
def Obligations.EmitRenewReplacesTheToken : Prop :=
  ∀ (tag d : Byte) (token : Half) (s : State), Accepts s →
    ((d.toNat < 1 ∨ 60 < d.toNat) →
      ∃ t, exec (.emitRenew tag token d) s = .next t ∧ t.inner = s.inner ∧ Undisturbed s t ∧
        Answered s t { kind := 0x8F, tag := tag, payload := [0x02] }) ∧
    (1 ≤ d.toNat → d.toNat ≤ 60 → s.lec.state ≠ .leased →
      ∃ t, exec (.emitRenew tag token d) s = .next t ∧ t.inner = s.inner ∧ Undisturbed s t ∧
        Answered s t { kind := 0x8F, tag := tag, payload := [0x01] }) ∧
    (1 ≤ d.toNat → d.toNat ≤ 60 → s.lec.state = .leased → (s.lec.token ≠ some token ∨ (LaserSafe s ∧ token = 0)) →
      ∃ t, exec (.emitRenew tag token d) s = .next t ∧ t.inner = s.inner ∧ Undisturbed s t ∧
        Answered s t { kind := 0x8F, tag := tag, payload := [0x05] }) ∧
    (1 ≤ d.toNat → d.toNat ≤ 60 → s.lec.state = .leased → s.lec.token = some token →
      ∃ t, exec (.emitRenew tag token d) s = .next t ∧
        t.inner = (s.setLec { s.lec with
          state := .leased, token := some s.lec.nextToken, expiry := some (ticksAfter s.now (d.toNat * 40000000)),
          duration := d.toNat,
          nextToken := if s.lec.nextToken = 65535#16 then 1 else s.lec.nextToken + 1 }).inner ∧
        Undisturbed s t ∧
        Answered s t { kind := 0x8F, tag := tag, payload := 0x00 :: (le 2 s.lec.nextToken.toNat
          ++ le 6 (ticksAfter s.now (d.toNat * 40000000)).toNat ++ byte d.toNat) })

/-- EMIT_OFF ends a lease in OFF with last end EMIT_OFF; EMIT_LEASED falls (on an idle lane its frame begins ahead of the
reply, and the interruption comes after both: the model's reading, log 16, log 22), and a sweep in progress is interrupted
with cause LEASE_ENDED; with none in progress, or a cause already recorded, nothing else changes; in OFF and LOCKED_OUT it is
OK and changes nothing. The reply carries the state before and after. -/
def Obligations.EmitOffEndsTheLease : Prop :=
  ∀ (tag : Byte) (s : State), Accepts s →
    (s.lec.state = .leased → ∃ t, exec (.emitOff tag) s = .next t ∧
      t.lec = { s.lec with state := .off, token := none, expiry := none, lastEnd := .emitOff } ∧
      Reported (s.edge .emitLeased false) s t ∧ Answered s t { kind := 0x90, tag := tag, payload := [0x00, 0x02, 0x01] } ∧
      (s.interruptible → Interrupted .leaseEnded s t) ∧
      (¬ s.interruptible → Arbited s t ∧
        t.inner = (s.setLec { s.lec with state := .off, token := none, expiry := none, lastEnd := .emitOff }).inner)) ∧
    (s.lec.state = .off → ∃ t, exec (.emitOff tag) s = .next t ∧ t.inner = s.inner ∧ Undisturbed s t ∧
      Answered s t { kind := 0x90, tag := tag, payload := [0x00, 0x01, 0x01] }) ∧
    (s.lec.state = .lockedOut → ∃ t, exec (.emitOff tag) s = .next t ∧ t.inner = s.inner ∧ Undisturbed s t ∧
      Answered s t { kind := 0x90, tag := tag, payload := [0x00, 0x00, 0x00] })

/-- The ILK input and the lease expiry: ILK LOW in LEASED voids the lease, locks out, and interrupts a sweep with cause
INTERLOCK, in OFF it locks out; ILK HIGH with the mirror locked leads from LOCKED_OUT to OFF; an expiry in LEASED leads to OFF
and interrupts a sweep with cause LEASE_ENDED. INTERLOCK_OK and EMIT_LEASED change in the order given; with no sweep to
interrupt nothing else changes. -/
def Obligations.InterlockAndExpiryEndTheLease : Prop :=
  ∀ s : State, s.active = true → s.lec.satisfied = s.interlockHolds →
    (s.lec.state = .leased → s.lec.satisfied = true → ∃ t, exec (.ilkChange false) s = .next t ∧
      t.lec = { s.lec with
        state := .lockedOut, token := none, expiry := none, lastEnd := .interlock, ilkHigh := false, satisfied := false } ∧
      Reported (s.edge .interlockOk false ++ s.edge .emitLeased false) s t ∧
      (s.interruptible → Interrupted .interlock s t) ∧
      (¬ s.interruptible → Arbited s t ∧ t.inner = (s.setLec t.lec).inner)) ∧
    (s.lec.state = .off → s.lec.satisfied = true → ∃ t, exec (.ilkChange false) s = .next t ∧
      t.inner = (s.setLec { s.lec with state := .lockedOut, ilkHigh := false, satisfied := false }).inner ∧ Arbited s t ∧
      Reported (s.edge .interlockOk false) s t) ∧
    (s.lec.state = .lockedOut → s.lec.satisfied = false → s.mdu.state.coarseLock = true →
      ∃ t, exec (.ilkChange true) s = .next t ∧
        t.inner = (s.setLec { s.lec with state := .off, ilkHigh := true, satisfied := true }).inner ∧ Arbited s t ∧
        Reported (s.edge .interlockOk true) s t) ∧
    (s.lec.state = .leased → s.lec.expiry = some s.now → ∃ t, exec .leaseExpiry s = .next t ∧
      t.lec = { s.lec with state := .off, token := none, expiry := none, lastEnd := .expired } ∧
      Reported (s.edge .emitLeased false) s t ∧
      (s.interruptible → Interrupted .leaseEnded s t) ∧
      (¬ s.interruptible → Arbited s t ∧ t.inner = (s.setLec t.lec).inner))

/-! ### Head -/

/-- HEAD_SLEW of an unowned head that is not in FAULT: the target, the slew direction, the slew timer at 20 s, SLEWING, driven
in that direction, or, at ±8 counts, SETTLING with the settle timer at 50 ms, driven by the shorter way; HEAD_IDLE falls if
the head was IDLE; unless it leaves UNPOWERED with the driver fault input asserted, where it ends in FAULT with reason DRIVER,
which the reply carries and HEAD_FAULT reports. On an idle lane the event's frame begins ahead of the reply (the model's
reading, log 16, log 22). -/
def Obligations.HeadSlewBegins : Prop :=
  ∀ (tag : Byte) (target : HeadCount) (s : State), Accepts s → s.hdu.owner = .none → s.hdu.state ≠ .fault →
    ((s.hdu.state ≠ .unpowered ∨ s.pins.headFault = false) →
      ∃ t, exec (.headSlew tag (target.setWidth 24)) s = .next t ∧
        t.inner = (s.setHdu { s.hdu with
          state := if headDistance target s.pins.headCount ≤ 8 then .settling else .slewing, target := target,
          direction := if (target - s.pins.headCount).toNat ≤ 524288 then .positive else .negative,
          slewTimer := some (ticksAfter s.now 800000000),
          settleTimer := if headDistance target s.pins.headCount ≤ 8 then some (ticksAfter s.now 2000000)
                         else none }).inner ∧
        t.headDrive = .position target (if headDistance target s.pins.headCount ≤ 8 then .shorter
          else .inDirection (if (target - s.pins.headCount).toNat ≤ 524288 then .positive else .negative)) ∧
        Arbited s t ∧ Reported (if s.hdu.state = .idle then s.edge .headIdle false else []) s t ∧
        Answered s t { kind := 0x8B, tag := tag,
                       payload := 0x00 :: (byte (if headDistance target s.pins.headCount ≤ 8 then 3 else 2)
                         ++ le 3 target.toNat
                         ++ byte (if (target - s.pins.headCount).toNat ≤ 524288 then 0 else 1)) }) ∧
    (s.hdu.state = .unpowered → s.pins.headFault = true →
      ∃ t, exec (.headSlew tag (target.setWidth 24)) s = .next t ∧ t.hdu.state = .fault ∧ t.hdu.faultReason = .driver ∧
        t.hdu.owner = .none ∧ t.hdu.slewTimer = none ∧ t.hdu.settleTimer = none ∧ Arbited s t ∧
        Reported [.headFault .driver (if headDistance target s.pins.headCount ≤ 8 then .settling else .slewing) .none target
          s.pins.headCount s.hdu.lastFollowing] s t ∧
        Answered s t { kind := 0x8B, tag := tag, payload := 0x00 :: (byte 5 ++ le 3 target.toNat
          ++ byte (if (target - s.pins.headCount).toNat ≤ 524288 then 0 else 1)) })

/-- An owned head refuses HEAD_HOLD and HEAD_RELEASE with STATE. HEAD_HOLD makes the present count the target and settles from
there; in IDLE it changes nothing. HEAD_RELEASE leads from IDLE and FAULT to UNPOWERED, the drive removed, and clears a
fault's reason, which the reply carries; HEAD_IDLE falls with a release from IDLE (on an idle lane its frame begins ahead of
the reply: the model's reading, log 16, log 22); a moving head is not released. -/
def Obligations.HeadHoldAndReleaseByState : Prop :=
  ∀ (tag : Byte) (s : State), Accepts s →
    (s.hdu.owner ≠ .none → ∃ t, exec (.headHold tag) s = .next t ∧ t.inner = s.inner ∧ Undisturbed s t ∧
      Answered s t { kind := 0x8C, tag := tag, payload := [0x01] }) ∧
    (s.hdu.owner ≠ .none → ∃ t, exec (.headRelease tag) s = .next t ∧ t.inner = s.inner ∧ Undisturbed s t ∧
      Answered s t { kind := 0x8D, tag := tag, payload := [0x01] }) ∧
    (s.hdu.owner = .none →
      ((s.hdu.state = .slewing ∨ s.hdu.state = .settling) → ∃ t, exec (.headHold tag) s = .next t ∧
        t.inner = (s.setHdu { s.hdu with
          state := .settling, target := s.pins.headCount, settleTimer := some (ticksAfter s.now 2000000) }).inner ∧
        Undisturbed s t ∧
        Answered s t { kind := 0x8C, tag := tag, payload := 0x00 :: 0x03 :: le 3 s.pins.headCount.toNat }) ∧
      (s.hdu.state = .sweeping → ∃ t, exec (.headHold tag) s = .next t ∧
        t.inner = (s.setHdu { s.hdu with
          state := .settling, target := s.pins.headCount, settleTimer := some (ticksAfter s.now 2000000),
          slewTimer := some (ticksAfter s.now 800000000) }).inner ∧ Undisturbed s t ∧
        Answered s t { kind := 0x8C, tag := tag, payload := 0x00 :: 0x03 :: le 3 s.pins.headCount.toNat }) ∧
      (s.hdu.state = .idle → ∃ t, exec (.headHold tag) s = .next t ∧ t.inner = s.inner ∧ Undisturbed s t ∧
        Answered s t { kind := 0x8C, tag := tag, payload := 0x00 :: 0x01 :: le 3 s.hdu.target.toNat }) ∧
      ((s.hdu.state = .unpowered ∨ s.hdu.state = .fault) → ∃ t, exec (.headHold tag) s = .next t ∧ t.inner = s.inner ∧
        Undisturbed s t ∧ Answered s t { kind := 0x8C, tag := tag, payload := [0x01] }) ∧
      (s.hdu.state = .idle → ∃ t, exec (.headRelease tag) s = .next t ∧
        t.inner = (s.setHdu { s.hdu with state := .unpowered }).inner ∧ t.headDrive = .removed ∧ Arbited s t ∧
        Reported (s.edge .headIdle false) s t ∧
        Answered s t { kind := 0x8D, tag := tag, payload := 0x00 :: byte s.hdu.faultReason.ctorIdx }) ∧
      (s.hdu.state = .fault → ∃ t, exec (.headRelease tag) s = .next t ∧
        t.inner = (s.setHdu { s.hdu with state := .unpowered, faultReason := .none }).inner ∧ Undisturbed s t ∧
        Answered s t { kind := 0x8D, tag := tag, payload := 0x00 :: byte s.hdu.faultReason.ctorIdx }) ∧
      (s.hdu.state = .unpowered → ∃ t, exec (.headRelease tag) s = .next t ∧ t.inner = s.inner ∧ Undisturbed s t ∧
        Answered s t { kind := 0x8D, tag := tag, payload := 0x00 :: byte s.hdu.faultReason.ctorIdx }) ∧
      ((s.hdu.state = .slewing ∨ s.hdu.state = .settling ∨ s.hdu.state = .sweeping) →
        ∃ t, exec (.headRelease tag) s = .next t ∧ t.inner = s.inner ∧ Undisturbed s t ∧
          Answered s t { kind := 0x8D, tag := tag, payload := [0x01] }))

/-- The head's way: within ±8 counts a slewing head settles with its settle timer at 50 ms, one that leaves ±8 counts stops that
timer, and one that comes back starts it again; in IDLE the distance is not watched; a count that another event brings acts the
same (log 6); in SWEEPING within the limit only the last following error follows (log 12). At the settle timer's end the head
enters IDLE with both timers stopped, HEAD_IDLE rises, and a prepared sweep enters RUNUP at its head rate. -/
def Obligations.HeadMovesAndSettles : Prop :=
  ∀ (count : HeadCount) (s : State), s.active = true →
    (s.hdu.state = .slewing → headDistance s.hdu.target count ≤ 8 → ∃ t, exec (.headDistanceChange count) s = .next t ∧
      t = (s.setPins { s.pins with headCount := count }).setHdu { s.hdu with
        state := .settling, settleTimer := some (ticksAfter s.now 2000000) }) ∧
    (s.hdu.state = .settling → 8 < headDistance s.hdu.target count → ∃ t, exec (.headDistanceChange count) s = .next t ∧
      t = (s.setPins { s.pins with headCount := count }).setHdu { s.hdu with settleTimer := none }) ∧
    (s.hdu.state = .settling → headDistance s.hdu.target count ≤ 8 → s.hdu.settleTimer = none →
      exec (.headDistanceChange count) s = .next ((s.setPins { s.pins with headCount := count }).setHdu { s.hdu with
        settleTimer := some (ticksAfter s.now 2000000) })) ∧
    (((s.hdu.state = .settling ∧ headDistance s.hdu.target count ≤ 8 ∧ s.hdu.settleTimer ≠ none) ∨ s.hdu.state = .idle ∨
        (s.hdu.state = .slewing ∧ 8 < headDistance s.hdu.target count)) →
      exec (.headDistanceChange count) s = .next (s.setPins { s.pins with headCount := count })) ∧
    (∀ mirror : MirrorCount, s.hdu.state = .slewing → headDistance s.hdu.target count ≤ 8 → s.las.filling = none →
      s.mdu.state ≠ .parking → s.mdu.state ≠ .parked →
      exec (.pulseOpportunity mirror count) s = .next
        ((s.setPins { s.pins with mirrorCount := mirror, headCount := count }).setHdu { s.hdu with
          state := .settling, settleTimer := some (ticksAfter s.now 2000000) })) ∧
    (∀ start, s.hdu.referenceStart = some start → s.hdu.state = .sweeping →
      (followingExact start s.hdu.rate count s.now).natAbs ≤ 256 * 80000000 →
      exec (.headDistanceChange count) s = .next ((s.setPins { s.pins with headCount := count }).setHdu { s.hdu with
        lastFollowing := followingWhole (followingExact start s.hdu.rate count s.now) })) ∧
    (s.hdu.state = .settling → s.hdu.settleTimer = some s.now → s.hdu.owner = .none →
      ∃ t, exec .headSettleExpiry s = .next t ∧
        t.inner = (s.setHdu { s.hdu with state := .idle, slewTimer := none, settleTimer := none }).inner ∧ Arbited s t ∧
        Reported (s.edge .headIdle true) s t) ∧
    (s.hdu.state = .settling → s.hdu.settleTimer = some s.now → s.hdu.owner = .sweep → s.scu.state = .preparing →
      s.mdu.state = .fine → ∃ t, exec .headSettleExpiry s = .next t ∧
        t.inner = ((s.setScu { s.scu with state := .runup, prepareTimer := none }).setHdu { s.hdu with
          state := .sweeping, slewTimer := none, settleTimer := none, lastFollowing := 0,
          rate := s.scu.profile.azStep * doubleRevs s.scu.profile.speed,
          referenceStart := some (s.pins.headCount, s.now) }).inner ∧ Arbited s t ∧
        Reported (s.edge .headIdle true ++ s.edge .headIdle false) s t)

/-- The three ways into FAULT: the slew timer's end, a following error above 256 counts, judged on the exact error (log 12),
at the count that brings it whichever row brings it, and the driver fault input. The timers stop, the owner becomes NONE and
HEAD_FAULT is appended behind the fall of HEAD_IDLE; a sweep that owned the head is interrupted with cause HEAD_FAULT, or a
second cause changes nothing in it; a photo run that owned it ends INTERRUPTED; an unowned head leaves the other blocks alone.
-/
def Obligations.HeadFaultsByReason : Prop :=
  ∀ s : State, s.active = true →
    ((s.hdu.state = .slewing ∨ s.hdu.state = .settling) → s.hdu.slewTimer = some s.now →
      ∃ t, exec .slewTimeout s = .next t ∧ HeadFaulted .slewTimeout s.hdu.lastFollowing s.pins s t) ∧
    (∀ count : HeadCount, s.hdu.state = .sweeping → ∀ start, s.hdu.referenceStart = some start →
      256 * 80000000 < (followingExact start s.hdu.rate count s.now).natAbs →
      (∃ t, exec (.followingError count) s = .next t ∧
        HeadFaulted .following (followingWhole (followingExact start s.hdu.rate count s.now))
          { s.pins with headCount := count } s t) ∧
      exec (.headDistanceChange count) s = exec (.followingError count) s) ∧
    ((s.hdu.state = .idle ∨ s.hdu.state = .slewing ∨ s.hdu.state = .settling ∨ s.hdu.state = .sweeping) →
      s.pins.headFault = false → ∃ t, exec (.headDriverFault true) s = .next t ∧
        HeadFaulted .driver s.hdu.lastFollowing { s.pins with headFault := true } s t)

/-! ### Mirror -/

/-- MIRROR_SPIN: a speed above 3 is refused with RANGE first, then an owned or STALLED mirror with STATE (an owned one refuses
MIRROR_PARK too, a count above 16,383 with RANGE first, and MIRROR_STOP). An unowned, unstalled mirror at another speed or in a state that does not spin enters SPINUP
with runs 0, no measurement start, the spin-up timer at 8 s, and the conditions it leaves fall; out of STOPPED with the driver
fault input asserted it ends in STALLED with reason DRIVER at the new set speed, which the reply carries and MIRROR_STALL
reports (on an idle lane ahead of the reply: the model's reading, log 16, log 22). At the set speed in a speed state nothing
changes. -/
def Obligations.MirrorSpinEntersSpinup : Prop :=
  (∀ (tag speed : Byte) (count : Half) (s : State), Accepts s →
    (3 < speed.toNat →
      OnlyAnswered (.mirrorSpin tag speed) s { kind := 0x88, tag := tag, payload := [0x02] }) ∧
    (speed.toNat ≤ 3 → (s.mdu.owner ≠ .none ∨ s.mdu.state = .stalled) →
      OnlyAnswered (.mirrorSpin tag speed) s { kind := 0x88, tag := tag, payload := [0x01] }) ∧
    (16384 ≤ count.toNat →
      OnlyAnswered (.mirrorPark tag count) s { kind := 0x89, tag := tag, payload := [0x02] }) ∧
    (count.toNat < 16384 → s.mdu.owner ≠ .none →
      OnlyAnswered (.mirrorPark tag count) s { kind := 0x89, tag := tag, payload := [0x01] }) ∧
    (s.mdu.owner ≠ .none → OnlyAnswered (.mirrorStop tag) s { kind := 0x8A, tag := tag, payload := [0x01] })) ∧
  (∀ (tag : Byte) (v : Fin 4) (s : State), Accepts s → s.mdu.owner = .none → s.mdu.state ≠ .stalled →
    ((s.mdu.state.spinning = false ∨ v ≠ s.mdu.setSpeed) → (s.mdu.state ≠ .stopped ∨ s.pins.mirrorFault = false) →
      ∃ t, exec (.mirrorSpin tag (BitVec.ofNat 8 v.val)) s = .next t ∧
        t.mdu = { s.mdu with
          state := .spinup, setSpeed := v, coarseRun := 0, fineRun := 0, measurementStart := none, switchMark := false,
          spinupTimer := some (ticksAfter s.now 320000000), watchdog := none, parkTimer := none, parkSettle := none,
          parkExcursion := none } ∧
        Reported s.mirrorFalls s t ∧
        Answered s t { kind := 0x88, tag := tag, payload := 0x00 :: (byte 1 ++ byte v.val) } ∧
        (s.hdu.owner ≠ .sweep → t.hdu = s.hdu) ∧ t.cal = s.cal ∧ t.tbu = s.tbu ∧ t.pins = s.pins) ∧
    (s.mdu.state = .stopped → s.pins.mirrorFault = true →
      ∃ t, exec (.mirrorSpin tag (BitVec.ofNat 8 v.val)) s = .next t ∧
        t.inner = (s.setMdu { s.mdu with
          state := .stalled, stallReason := .driver, setSpeed := v, coarseRun := 0, fineRun := 0,
          measurementStart := none, switchMark := false, spinupTimer := none, watchdog := none, parkTimer := none,
          parkSettle := none, parkExcursion := none }).inner ∧ Arbited s t ∧
        Reported [.mirrorStall .driver .spinup .none v s.mdu.lastPeriod] s t ∧
        Answered s t { kind := 0x88, tag := tag, payload := 0x00 :: (byte 6 ++ byte v.val) }) ∧
    (s.mdu.state.spinning = true → v = s.mdu.setSpeed →
      OnlyAnswered (.mirrorSpin tag (BitVec.ofNat 8 v.val)) s
        { kind := 0x88, tag := tag, payload := 0x00 :: (byte s.mdu.state.ctorIdx ++ byte v.val) }))

/-- MIRROR_PARK of an unowned mirror. From SPINUP, COARSE, FINE, and from STOPPED without the driver fault input: PARKING
toward the target, runs 0, speed timers stopped, the conditions it leaves fall, the park timer at 3 s, the settle timer at 20
ms only within ±2 counts. From PARKING and PARKED: a new target, both timers set afresh. From STOPPED with the driver fault
input: STALLED with reason DRIVER. From STALLED: refused with STATE. -/
def Obligations.MirrorParkEntersParking : Prop :=
  ∀ (tag : Byte) (target : MirrorCount) (s : State), Accepts s → s.mdu.owner = .none →
    ((s.mdu.state.spinning = true ∨ (s.mdu.state = .stopped ∧ s.pins.mirrorFault = false)) →
      ∃ t, exec (.mirrorPark tag (target.setWidth 16)) s = .next t ∧
        t.mdu = { s.mdu with
          state := .parking, parkTarget := target, coarseRun := 0, fineRun := 0, measurementStart := none,
          switchMark := false, spinupTimer := none, watchdog := none, parkTimer := some (ticksAfter s.now 120000000),
          parkSettle := if parkDistance target s.pins.mirrorCount ≤ 2 then some (ticksAfter s.now 800000) else none } ∧
        Reported s.mirrorFalls s t ∧
        Answered s t { kind := 0x89, tag := tag, payload := 0x00 :: (byte 4 ++ le 2 target.toNat) } ∧
        (s.hdu.owner ≠ .sweep → t.hdu = s.hdu) ∧ t.cal = s.cal ∧ t.tbu = s.tbu ∧ t.pins = s.pins) ∧
    ((s.mdu.state = .parking ∨ s.mdu.state = .parked) →
      ∃ t, exec (.mirrorPark tag (target.setWidth 16)) s = .next t ∧
        t.inner = (s.setMdu { s.mdu with
          state := .parking, parkTarget := target, parkTimer := some (ticksAfter s.now 120000000),
          parkSettle := if parkDistance target s.pins.mirrorCount ≤ 2 then some (ticksAfter s.now 800000) else none,
          parkExcursion := if s.mdu.state = .parked then none else s.mdu.parkExcursion }).inner ∧ Undisturbed s t ∧
        Answered s t { kind := 0x89, tag := tag, payload := 0x00 :: (byte 4 ++ le 2 target.toNat) }) ∧
    (s.mdu.state = .stopped → s.pins.mirrorFault = true →
      ∃ t, exec (.mirrorPark tag (target.setWidth 16)) s = .next t ∧ t.mdu.state = .stalled ∧
        t.mdu.stallReason = .driver ∧ t.mdu.parkTarget = target ∧ t.mdu.parkTimer = none ∧ t.mdu.parkSettle = none ∧
        t.lec = s.lec ∧ t.scu = s.scu ∧ t.hdu = s.hdu ∧ Arbited s t ∧
        Reported [.mirrorStall .driver .parking .none s.mdu.setSpeed s.mdu.lastPeriod] s t) ∧
    (s.mdu.state = .stalled → ∃ t, exec (.mirrorPark tag (target.setWidth 16)) s = .next t ∧ t.inner = s.inner ∧
      Undisturbed s t ∧ Answered s t { kind := 0x89, tag := tag, payload := [0x01] })

/-- MIRROR_STOP of an unowned mirror leads from every state to STOPPED, timers stopped, runs 0, stall reason NONE; with the
mirror out of COARSE and FINE before, no other block changes; out of COARSE or FINE the conditions fall and a lease is voided; the
reply carries the stall reason as it stood. -/
def Obligations.MirrorStopClearsTheStall : Prop :=
  ∀ (tag : Byte) (s : State), Accepts s → s.mdu.owner = .none →
    ∃ t, exec (.mirrorStop tag) s = .next t ∧
      t.mdu = { s.mdu with
        state := .stopped, stallReason := .none, coarseRun := 0, fineRun := 0, measurementStart := none,
        switchMark := false, spinupTimer := none, watchdog := none, parkTimer := none, parkSettle := none,
        parkExcursion := none } ∧
      Answered s t { kind := 0x8A, tag := tag, payload := 0x00 :: byte s.mdu.stallReason.ctorIdx } ∧
      Reported s.mirrorFalls s t ∧
      (s.mdu.state.coarseLock = true → s.lec.satisfied = true → s.lec.state = .leased →
        t.lec = { s.lec with
          state := .lockedOut, satisfied := false, token := none, expiry := none, lastEnd := .interlock }) ∧
      (s.mdu.state.coarseLock = false →
        t.scu = s.scu ∧ t.hdu = s.hdu ∧ t.lec = s.lec ∧ t.rtu = s.rtu ∧ t.pfm = s.pfm ∧ t.cal = s.cal ∧ t.tbu = s.tbu ∧
        t.pins = s.pins ∧ Undisturbed s t)

/-- The five ways into STALLED, each with its reason; all timers stop, the runs are 0, the set speed and the last period
stand; the falls of the conditions come before MIRROR_STALL; a lease the mirror carried is voided and a sweep interrupted with
cause INTERLOCK; a photo run that owned the mirror ends INTERRUPTED; an unowned mirror that held no lock leaves the other
blocks alone. -/
def Obligations.MirrorStallsByReason : Prop :=
  ∀ s : State, s.active = true →
    (s.mdu.state = .spinup → s.mdu.spinupTimer = some s.now → ∃ t, exec .spinupTimeout s = .next t ∧
      MirrorStalled .spinupTimeout s.pins s t) ∧
    ((s.mdu.state = .coarse ∨ s.mdu.state = .fine) → s.mdu.watchdog = some s.now → ∃ t, exec .indexLoss s = .next t ∧
      MirrorStalled .indexLoss s.pins s t) ∧
    (s.mdu.state = .parking → s.mdu.parkTimer = some s.now → ∃ t, exec .parkTimeout s = .next t ∧
      MirrorStalled .parkTimeout s.pins s t) ∧
    (s.mdu.state = .parked → s.mdu.parkExcursion = some s.now → ∃ t, exec .parkLost s = .next t ∧
      MirrorStalled .parkLost s.pins s t) ∧
    (s.mdu.state.driven = true → s.pins.mirrorFault = false → ∃ t, exec (.mirrorDriverFault true) s = .next t ∧
      MirrorStalled .driver { s.pins with mirrorFault := true } s t)

/-- The parking mirror: within ±2 counts the settle timer runs (20 ms), and goes on if it runs, outside it stops; at its end the
mirror is PARKED; a parked mirror beyond ±16 counts has its excursion timer run (100 ms), and go on if it runs, within them it
stops. -/
def Obligations.MirrorParksAndIsWatched : Prop :=
  ∀ (count : MirrorCount) (s : State), s.active = true →
    (s.mdu.state = .parking → parkDistance s.mdu.parkTarget count ≤ 2 → s.mdu.parkSettle = none →
      exec (.parkDistanceChange count) s = .next ((s.setPins { s.pins with mirrorCount := count }).setMdu { s.mdu with
        parkSettle := some (ticksAfter s.now 800000) })) ∧
    (s.mdu.state = .parking → parkDistance s.mdu.parkTarget count ≤ 2 → s.mdu.parkSettle ≠ none →
      exec (.parkDistanceChange count) s = .next (s.setPins { s.pins with mirrorCount := count })) ∧
    (s.mdu.state = .parking → 2 < parkDistance s.mdu.parkTarget count →
      exec (.parkDistanceChange count) s = .next ((s.setPins { s.pins with mirrorCount := count }).setMdu { s.mdu with
        parkSettle := none })) ∧
    (s.mdu.state = .parked → 16 < parkDistance s.mdu.parkTarget count → s.mdu.parkExcursion = none →
      exec (.parkDistanceChange count) s = .next ((s.setPins { s.pins with mirrorCount := count }).setMdu { s.mdu with
        parkExcursion := some (ticksAfter s.now 4000000) })) ∧
    (s.mdu.state = .parked → 16 < parkDistance s.mdu.parkTarget count → s.mdu.parkExcursion ≠ none →
      exec (.parkDistanceChange count) s = .next (s.setPins { s.pins with mirrorCount := count })) ∧
    (s.mdu.state = .parked → parkDistance s.mdu.parkTarget count ≤ 16 →
      exec (.parkDistanceChange count) s = .next ((s.setPins { s.pins with mirrorCount := count }).setMdu { s.mdu with
        parkExcursion := none })) ∧
    (s.mdu.state = .parking → s.mdu.parkSettle = some s.now → s.mdu.owner = .none →
      exec .parkSettleExpiry s = .next (s.setMdu { s.mdu with state := .parked, parkTimer := none, parkSettle := none }))

/-- The lock detector at an index pulse. The first one starts the measurement and changes no counter and no state. With a
measurement running the period is recorded and the next one begins: a coarse miss leads to SPINUP with both runs 0; a coarse
match that is no fine match counts in SPINUP, keeps COARSE and brings FINE back to COARSE, the fine run 0; a fine match counts
in both runs, unless the switch mark stands; the sixteenth coarse match leads to COARSE, the sixty-fourth fine match to FINE.
In COARSE and FINE the watchdog runs for two periods and the spin-up timer is stopped; a fall into SPINUP stops the watchdog
and starts the spin-up timer at 8 s. With no sweep and no line the edges are the only events, MIRROR_COARSE before
INTERLOCK_OK at a rise (log 34). -/
def Obligations.IndexPulseComparesThePeriod : Prop :=
  ∀ (head : HeadCount) (s : State), s.active = true → s.mdu.state.spinning = true →
    (s.mdu.measurementStart = none → s.mdu.state = .spinup → ∃ t, exec (.indexPulse head) s = .next t ∧
      t.mdu.measurementStart = some s.now ∧ t.mdu.switchMark = false ∧ t.mdu.state = .spinup ∧
      t.mdu.coarseRun = s.mdu.coarseRun ∧ t.mdu.fineRun = s.mdu.fineRun ∧ t.mdu.lastPeriod = s.mdu.lastPeriod ∧
      t.mdu.spinupTimer = s.mdu.spinupTimer) ∧
    (∀ start : Tick, s.mdu.measurementStart = some start →
    ∃ t, exec (.indexPulse head) s = .next t ∧ t.mdu.measurementStart = some s.now ∧ t.mdu.switchMark = false ∧
      t.mdu.lastPeriod = min (ticksFrom start s.now) 4294967295 ∧ t.mdu.setSpeed = s.mdu.setSpeed ∧
      (targetPeriod s.mdu.setSpeed < periodError (ticksFrom start s.now) (targetPeriod s.mdu.setSpeed) * 100 →
        t.mdu.state = .spinup ∧ t.mdu.coarseRun = 0 ∧ t.mdu.fineRun = 0 ∧
        (s.mdu.state ≠ .spinup → t.mdu.watchdog = none ∧ t.mdu.spinupTimer = some (ticksAfter s.now 320000000)) ∧
        (s.mdu.state = .spinup → t.mdu.watchdog = s.mdu.watchdog ∧ t.mdu.spinupTimer = s.mdu.spinupTimer) ∧
        (s.scu.state = .idle → s.las.filling = none → s.keepsUp head → Reported s.mirrorFalls s t)) ∧
      (periodError (ticksFrom start s.now) (targetPeriod s.mdu.setSpeed) * 100 ≤ targetPeriod s.mdu.setSpeed →
        (s.mdu.state = .spinup → t.mdu.coarseRun = satInc 16 s.mdu.coarseRun ∧
          (16 ≤ satInc 16 s.mdu.coarseRun → t.mdu.state = .coarse) ∧
          (satInc 16 s.mdu.coarseRun < 16 → t.mdu.state = .spinup ∧ t.mdu.watchdog = s.mdu.watchdog ∧
            t.mdu.spinupTimer = s.mdu.spinupTimer) ∧
          (s.scu.state = .idle → s.las.filling = none → s.keepsUp head → s.lec.satisfied = false →
            16 ≤ satInc 16 s.mdu.coarseRun → Reported (s.edge .mirrorCoarse true
              ++ if s.lec.ilkHigh = true then s.edge .interlockOk true else []) s t)) ∧
        (s.mdu.state ≠ .spinup → t.mdu.coarseRun = s.mdu.coarseRun) ∧
        (t.mdu.state ≠ .spinup → t.mdu.spinupTimer = none ∧
          t.mdu.watchdog = some (ticksAfter s.now (2 * targetPeriod s.mdu.setSpeed)))) ∧
      (periodError (ticksFrom start s.now) (targetPeriod s.mdu.setSpeed) * 100 ≤ targetPeriod s.mdu.setSpeed →
        (targetPeriod s.mdu.setSpeed < periodError (ticksFrom start s.now) (targetPeriod s.mdu.setSpeed) * 2000 ∨
          s.mdu.switchMark = true) →
        t.mdu.fineRun = 0 ∧ (s.mdu.state = .coarse ∨ s.mdu.state = .fine → t.mdu.state = .coarse) ∧
        (s.mdu.state = .spinup → s.mdu.coarseRun = 15 → t.mdu.state = .coarse) ∧
        (s.scu.state = .idle → s.las.filling = none → s.keepsUp head → s.mdu.state = .fine →
          Reported (s.edge .mirrorFine false) s t)) ∧
      (periodError (ticksFrom start s.now) (targetPeriod s.mdu.setSpeed) * 2000 ≤ targetPeriod s.mdu.setSpeed →
        s.mdu.switchMark = false →
        t.mdu.fineRun = satInc 64 s.mdu.fineRun ∧ (s.mdu.state = .fine → t.mdu.state = .fine) ∧
        (s.mdu.state = .spinup → s.mdu.coarseRun = 15 → t.mdu.state = .coarse) ∧
        (s.mdu.state = .coarse → s.mdu.fineRun < 63 → t.mdu.state = .coarse) ∧
        (s.mdu.state = .coarse → s.mdu.fineRun = 63 → t.mdu.state = .fine ∧ t.mdu.fineRun = 64) ∧
        (s.scu.state = .idle → s.las.filling = none → s.keepsUp head → s.mdu.state = .coarse → s.mdu.fineRun = 63 →
          Reported (s.edge .mirrorFine true) s t)))

/-! ### Sweeps -/

/-- SWEEP_START. A field outside its range is refused with RANGE first, then with STATE whatever of R6 forbids the sweep, then
a state that is not LEASED with INTERLOCK. Taken: the sweep record, the gap list, the owners, the slew to eight steps before
a0, the prepare timer at 30 s, PREPARING; HEAD_IDLE falls if the head was IDLE (on an idle lane its frame begins ahead of the
reply: the model's reading, log 16, log 22); the reply carries the sweep id and N. Out of UNPOWERED with the driver fault input
asserted the head ends in FAULT, which HEAD_FAULT reports, and with no line FILLING the sweep it has begun ends at once with
cause HEAD_FAULT, the command answered OK. -/
def Obligations.SweepStartPrepares : Prop :=
  (∀ (tag : Byte) (sweepId : Half) (kind bank : Byte) (a0 length : BitVec 24) (s : State), Accepts s →
    (sweepId = 0 ∨ 1 < kind.toNat ∨ 3 < bank.toNat ∨ 1048576 ≤ a0.toNat ∨ length = 0 ∨
      (∃ b : Fin 4, bank.toNat = b.val ∧ 1048576 < length.toNat + s.cal.working.banks[b].azStep)) →
    OnlyAnswered (.sweepStart tag sweepId kind bank a0 length) s { kind := 0x85, tag := tag, payload := [0x02] }) ∧
  (∀ (tag : Byte) (q : SweepRequest) (bank : Fin 4) (s : State), Accepts s →
    s.cal.working.banks[bank] = q.profile → 1 ≤ q.sweepId.toNat → 1 ≤ q.length → q.length + q.profile.azStep ≤ 1048576 →
    ∀ c, c = Instr.sweepStart tag q.sweepId (BitVec.ofNat 8 q.kind.ctorIdx) (BitVec.ofNat 8 bank.val)
      (q.a0.setWidth 24) (BitVec.ofNat 24 q.length) →
    ∀ started : Scu, started =
      { state := .preparing, sweepId := q.sweepId, kind := q.kind, profile := q.profile, a0 := q.a0,
        lines := (q.length + q.profile.azStep - 1) / q.profile.azStep, k := 0, clean := 0, flagged := 0,
        lostNoLock := 0, lostNoSlot := 0, result := .none, endCause := .none, startTick := s.now,
        endTick := s.scu.endTick, prepareTimer := some (ticksAfter s.now 1200000000),
        gaps := match q.kind with
          | .full => { entries := [], reference := q.a0, overflow := false, lastChanger := q.sweepId }
          | .patch => s.scu.gaps } →
    ((s.scu.state ≠ .idle ∨ s.phu.state ≠ .idle ∨ s.hdu.owner ≠ .none ∨ s.mdu.owner ≠ .none ∨ s.hdu.state = .fault ∨
        (s.mdu.state ≠ .coarse ∧ s.mdu.state ≠ .fine) ∨ s.mdu.setSpeed ≠ q.profile.speed) →
      OnlyAnswered c s { kind := 0x85, tag := tag, payload := [0x01] }) ∧
    (s.scu.state = .idle → s.phu.state = .idle → s.hdu.owner = .none → s.mdu.owner = .none → s.hdu.state ≠ .fault →
      (s.mdu.state = .coarse ∨ s.mdu.state = .fine) → s.mdu.setSpeed = q.profile.speed →
      (s.lec.state ≠ .leased → OnlyAnswered c s { kind := 0x85, tag := tag, payload := [0x04] }) ∧
      (s.lec.state = .leased → (s.hdu.state ≠ .unpowered ∨ s.pins.headFault = false) →
        ∃ t, exec c s = .next t ∧ t.scu = started ∧
          t.mdu = { s.mdu with owner := .sweep } ∧ t.hdu.owner = .sweep ∧
          t.hdu.target = q.a0 - BitVec.ofNat 20 (8 * q.profile.azStep) ∧
          (t.hdu.state = .slewing ∨ t.hdu.state = .settling) ∧ t.hdu.slewTimer = some (ticksAfter s.now 800000000) ∧
          t.lec = s.lec ∧ t.cal = s.cal ∧ t.rtu = s.rtu ∧ t.pfm = s.pfm ∧ t.tbu = s.tbu ∧ t.pins = s.pins ∧
          Arbited s t ∧ Reported (if s.hdu.state = .idle then s.edge .headIdle false else []) s t ∧
          Answered s t { kind := 0x85, tag := tag, payload := 0x00 :: (le 2 q.sweepId.toNat ++ le 3 started.lines) }) ∧
      (s.lec.state = .leased → s.hdu.state = .unpowered → s.pins.headFault = true → s.las.filling = none →
        ∃ t, exec c s = .next t ∧ t.scu = started.endedBy .headFault s.now 0 ∧
          t.hdu.state = .fault ∧ t.hdu.faultReason = .driver ∧ t.hdu.owner = .none ∧ t.mdu = s.mdu ∧ t.lec = s.lec ∧
          t.cal = s.cal ∧ t.tbu = s.tbu ∧ t.pins = s.pins ∧ SweepFreed .headFault [] s t ∧
          (∀ target, target = q.a0 - BitVec.ofNat 20 (8 * q.profile.azStep) → Reported
            [.headFault .driver (if headDistance target s.pins.headCount ≤ 8 then .settling else .slewing) .sweep target
              s.pins.headCount s.hdu.lastFollowing] s t) ∧
          Answered s t { kind := 0x85, tag := tag, payload := 0x00 :: (le 2 q.sweepId.toNat ++ le 3 started.lines) })))

/-- The ends of a sweep. SWEEP_ABORT interrupts a sweep with cause HOST_ABORT, is refused in IDLE, and changes nothing once a
cause is recorded; the prepare timer's end interrupts with cause PREPARE_TIMEOUT; no event is appended. In CLOSING the seal of
the last line ends the sweep: at the index pulse with end cause NONE, COMPLETE or COMPLETE_WITH_GAPS, before an interruption
that the same pulse's coarse miss causes (the model's reading, log 14); of a STOPPED line, TRUNCATED and counted flagged, at
the retirement of its last entry, or at the index pulse with what is left retired LOST. -/
def Obligations.SweepEndsByAbortAndPrepareTimeout : Prop :=
  (∀ (tag : Byte) (s : State),
    (Accepts s → s.scu.state = .idle → ∃ t, exec (.sweepAbort tag) s = .next t ∧ t.inner = s.inner ∧ Undisturbed s t ∧
      Answered s t { kind := 0x86, tag := tag, payload := [0x01] }) ∧
    (Accepts s → s.interruptible → ∃ t, exec (.sweepAbort tag) s = .next t ∧ Interrupted .hostAbort s t ∧
      Reported [] s t ∧ t.lec = s.lec ∧ t.cal = s.cal ∧ t.tbu = s.tbu ∧ t.pins = s.pins ∧
      t.mdu = { s.mdu with owner := t.mdu.owner } ∧ Answered s t { kind := 0x86, tag := tag, payload := [0x00] }) ∧
    (Accepts s → s.scu.state = .closing → s.scu.endCause ≠ .none → ∃ t, exec (.sweepAbort tag) s = .next t ∧
      t.inner = s.inner ∧ Undisturbed s t ∧ Answered s t { kind := 0x86, tag := tag, payload := [0x00] }) ∧
    (s.active = true → s.scu.state = .preparing → s.scu.prepareTimer = some s.now →
      ∃ t, exec .prepareTimeout s = .next t ∧ Interrupted .prepareTimeout s t ∧ Reported [] s t ∧ t.lec = s.lec ∧
        t.cal = s.cal ∧ t.tbu = s.tbu ∧ t.pins = s.pins ∧ t.mdu = { s.mdu with owner := t.mdu.owner })) ∧
  ∀ (i : Fin 8) (s : State), s.active = true → s.scu.state = .closing → s.las.filling = some i →
    (∀ j, s.las.slots[j].state = .filling → j = i) → s.rtu.holding = none → s.pfm = none →
    .slot i ∉ s.las.source →
    (∀ (head : HeadCount) (start : Tick), s.keepsUp head → s.mdu.state.spinning = true →
      s.mdu.measurementStart = some start →
      (s.scu.endCause = .none → s.las.slots[i].mode = .firing → ∃ t, exec (.indexPulse head) s = .next t ∧
        LineSealed i false (targetPeriod s.mdu.setSpeed <
          periodError (ticksFrom start s.now) (targetPeriod s.mdu.setSpeed) * 2000) (s.lostAtSeal i) s t ∧
        t.scu = (s.scu.afterSeal s.las.slots[i].lineIndex
          (periodError (ticksFrom start s.now) (targetPeriod s.mdu.setSpeed) * 2000 ≤ targetPeriod s.mdu.setSpeed ∧
            s.lostAtSeal i + s.las.slots[i].skipped = 0)).closedAt s.now ∧
        SweepFreed .none [.slot i] (s.setPins { s.pins with headCount := head }) t) ∧
      (s.scu.endCause ≠ .none → s.las.slots[i].mode = .stopped → ∃ t, exec (.indexPulse head) s = .next t ∧
        LineSealed i true (targetPeriod s.mdu.setSpeed <
          periodError (ticksFrom start s.now) (targetPeriod s.mdu.setSpeed) * 2000) (s.lostAtSeal i) s t ∧
        t.scu = { s.scu with flagged := satInc s.scu.lines s.scu.flagged }.closedAt s.now ∧
        SweepFreed .none [.slot i] (s.setPins { s.pins with headCount := head }) t)) ∧
    (∀ e, s.rtu.fireLog = [e] → e.slot = i → ticksAfter e.tick 8000 = s.now → s.las.slots[i].mode = .stopped →
      ∃ t, exec .returnTimeout s = .next t ∧ LineSealed i true false (satInc 8192 s.las.slots[i].lost) s t ∧
        t.rtu = { s.rtu with fireLog := [] } ∧
        t.scu = { s.scu with flagged := satInc s.scu.lines s.scu.flagged }.closedAt s.now ∧
        SweepFreed .none [.slot i] s t)

/-- An index pulse of a sweep, LEASED, the head within its limit (log 12), nothing waiting while the lane is idle (the
invariant of LaneStaysFedAtEveryStep), the comparison of this pulse a fine match where not said otherwise. In PREPARING a pulse
that brings the mirror into FINE, the head IDLE, leads to RUNUP at the head rate, the test for a0 left to the next pulse (the
model's reading, log 15); any other coarse match leaves the sweep waiting. With no line FILLING: the opportunity of line k opens the line in FINE with the slot at the ring position
FREE, the ring position moving on; in FINE with that slot not FREE it is lost NO_SLOT; in COARSE with the fine run short it is
lost NO_LOCK; a lost line's interval is added in a FULL sweep alone. At k + 1 = N the sweep enters CLOSING with end cause NONE, and closes at once if the line did not open. In RUNUP
a head that has not passed a0 changes nothing; one that has makes this the opportunity of line k, in SCANNING. A FILLING line
is sealed first: entries left LOST, the flags decided, the line counted and its interval subtracted, or added in a FULL sweep;
a fine miss marks it SPEED_DEVIATION and loses line k NO_LOCK. -/
def Obligations.IndexPulseDecidesTheLine : Prop :=
  ∀ (head : HeadCount) (start : Tick) (s : State), s.active = true → LaneFed s → s.lec.state = .leased →
    s.keepsUp head → s.mdu.measurementStart = some start → s.mdu.switchMark = false →
    (s.las.filling = none → s.scu.state = .scanning →
      periodError (ticksFrom start s.now) (targetPeriod s.mdu.setSpeed) * 2000 ≤ targetPeriod s.mdu.setSpeed →
      (s.scu.k + 1 < s.scu.lines →
        (s.mdu.state = .fine → s.las.slots[s.las.position].state = .free → ∃ t, exec (.indexPulse head) s = .next t ∧
          t.scu = { s.scu with k := s.scu.k + 1 } ∧ t.las.position = s.las.position + 1 ∧
          t.las.slots[s.las.position] = s.lineOpened head ∧
          Reported (if s.las.notFree = 5 then s.edge .ringHigh true else []) s t ∧ t.rtu = s.rtu ∧ t.lec = s.lec) ∧
        (s.mdu.state = .fine → s.las.slots[s.las.position].state ≠ .free → ∃ t, exec (.indexPulse head) s = .next t ∧
          t.scu.k = s.scu.k + 1 ∧ t.scu.lostNoSlot = satInc s.scu.lines s.scu.lostNoSlot ∧
          t.scu.lostNoLock = s.scu.lostNoLock ∧ t.las.position = s.las.position ∧ Reported [] s t ∧
          (s.scu.kind = .full →
            t.scu.gaps = s.scu.gaps.add s.scu.sweepId (s.scu.lineOffset s.scu.k) s.scu.profile.azStep) ∧
          (s.scu.kind = .patch → t.scu.gaps = s.scu.gaps)) ∧
        (s.mdu.state = .coarse → s.mdu.fineRun < 63 → ∃ t, exec (.indexPulse head) s = .next t ∧
          t.scu.k = s.scu.k + 1 ∧ t.scu.lostNoLock = satInc s.scu.lines s.scu.lostNoLock ∧
          t.scu.lostNoSlot = s.scu.lostNoSlot ∧ t.las.position = s.las.position ∧ Reported [] s t ∧
          (s.scu.kind = .full →
            t.scu.gaps = s.scu.gaps.add s.scu.sweepId (s.scu.lineOffset s.scu.k) s.scu.profile.azStep) ∧
          (s.scu.kind = .patch → t.scu.gaps = s.scu.gaps))) ∧
      (s.scu.k + 1 = s.scu.lines → s.scu.endCause = .none → s.mdu.state = .fine →
        (s.las.slots[s.las.position].state = .free → ∃ t, exec (.indexPulse head) s = .next t ∧
          t.scu = { s.scu with k := s.scu.lines, state := .closing } ∧
          t.las.slots[s.las.position] = s.lineOpened head ∧ t.las.position = s.las.position + 1) ∧
        (s.las.slots[s.las.position].state ≠ .free → ∃ t, exec (.indexPulse head) s = .next t ∧
          t.scu.state = .idle ∧ t.scu.k = s.scu.lines ∧ t.scu.endCause = .none ∧ t.scu.endTick = s.now ∧
          t.scu.result = (if t.scu.gaps.entries = [] then .complete else .completeWithGaps) ∧
          SweepFreed .none [] (s.setPins { s.pins with headCount := head }) t))) ∧
    (s.las.filling = none → s.scu.state = .runup → s.mdu.state = .fine →
      periodError (ticksFrom start s.now) (targetPeriod s.mdu.setSpeed) * 2000 ≤ targetPeriod s.mdu.setSpeed →
      (524288 ≤ (head - s.scu.a0).toNat → ∃ t, exec (.indexPulse head) s = .next t ∧ t.scu = s.scu ∧ t.las = s.las) ∧
      ((head - s.scu.a0).toNat < 524288 → s.scu.k + 1 < s.scu.lines →
        s.las.slots[s.las.position].state = .free → ∃ t, exec (.indexPulse head) s = .next t ∧
        t.scu = { s.scu with state := .scanning, k := s.scu.k + 1 } ∧
        t.las.slots[s.las.position] = s.lineOpened head)) ∧
    (s.las.filling = none → s.scu.state = .preparing → (s.mdu.state = .coarse ∨ s.mdu.state = .fine) →
      periodError (ticksFrom start s.now) (targetPeriod s.mdu.setSpeed) * 100 ≤ targetPeriod s.mdu.setSpeed →
      (periodError (ticksFrom start s.now) (targetPeriod s.mdu.setSpeed) * 2000 ≤ targetPeriod s.mdu.setSpeed →
        s.mdu.state = .coarse → s.mdu.fineRun = 63 → s.hdu.state = .idle → ∃ t, exec (.indexPulse head) s = .next t ∧
        t.scu = { s.scu with state := .runup, prepareTimer := none } ∧ t.mdu.state = .fine ∧
        t.hdu = { s.hdu with
          state := .sweeping, rate := s.scu.profile.azStep * doubleRevs s.scu.profile.speed,
          referenceStart := some (head, s.now), lastFollowing := 0 } ∧
        t.las.position = s.las.position ∧ t.lec = s.lec ∧ t.rtu = s.rtu ∧
        Reported (s.edge .mirrorFine true ++ s.edge .headIdle false) s t) ∧
      ((targetPeriod s.mdu.setSpeed < periodError (ticksFrom start s.now) (targetPeriod s.mdu.setSpeed) * 2000 ∨
          s.mdu.state = .fine ∨ s.mdu.fineRun < 63 ∨ s.hdu.state ≠ .idle) →
        ∃ t, exec (.indexPulse head) s = .next t ∧ t.scu = s.scu)) ∧
    (∀ i, s.las.filling = some i → s.las.slots[i].mode = .firing → (∀ j, s.las.slots[j].state = .filling → j = i) →
      s.rtu.holding = none → s.pfm = none → s.scu.state = .scanning → s.mdu.state = .fine →
      s.scu.k + 1 < s.scu.lines →
      (periodError (ticksFrom start s.now) (targetPeriod s.mdu.setSpeed) * 2000 ≤ targetPeriod s.mdu.setSpeed →
        s.las.slots[s.las.position].state = .free →
        ∃ t, exec (.indexPulse head) s = .next t ∧ LineSealed i false false (s.lostAtSeal i) s t ∧
          t.rtu.fireLog = (s.rtu.fireLog.filter fun e => e.slot != i) ∧
          t.scu = { s.scu.afterSeal s.las.slots[i].lineIndex
            (decide (s.lostAtSeal i + s.las.slots[i].skipped = 0)) with k := s.scu.k + 1 } ∧
          t.las.slots[s.las.position] = s.lineOpened head ∧ t.las.position = s.las.position + 1 ∧
          (s.oba.lane ≠ none → t.las.source = s.las.source ++ [.slot i] ∧
            t.evr = (if s.las.notFree = 5 then s.edge .ringHigh true else []).foldl (Evr.take s.now) s.evr)) ∧
      (periodError (ticksFrom start s.now) (targetPeriod s.mdu.setSpeed) * 100 ≤ targetPeriod s.mdu.setSpeed →
        targetPeriod s.mdu.setSpeed < periodError (ticksFrom start s.now) (targetPeriod s.mdu.setSpeed) * 2000 →
        ∃ t, exec (.indexPulse head) s = .next t ∧ LineSealed i false true (s.lostAtSeal i) s t ∧
          t.scu.k = s.scu.k + 1 ∧ t.scu.flagged = satInc s.scu.lines s.scu.flagged ∧ t.scu.clean = s.scu.clean ∧
          t.scu.lostNoLock = satInc s.scu.lines s.scu.lostNoLock ∧
          (s.scu.kind = .full → t.scu.gaps = (s.scu.gaps.add s.scu.sweepId (s.scu.lineOffset s.las.slots[i].lineIndex)
            s.scu.profile.azStep).add s.scu.sweepId (s.scu.lineOffset s.scu.k) s.scu.profile.azStep) ∧
          (s.scu.kind = .patch → t.scu.gaps = s.scu.gaps) ∧
          (s.oba.lane ≠ none → t.las.source = s.las.source ++ [.slot i] ∧
            t.evr = (s.edge .mirrorFine false).foldl (Evr.take s.now) s.evr)))

/-! ### Pulses and points -/

/-- The firing rule at the `n` positions, from the next one on, that one advance of the mirror count has reached, the head
SWEEPING within its limit (the last following error kept up to date, log 12): all are taken in ascending pulse index at the
count that was reached. LEASED, as many as the fire log has room for fire (strobe, entry, next sequence) and the rest are
skipped; else they pass uncounted. With no position reached only the counts change. That one row is one advance of the mirror
count is the model's reading (log 28). The strobe the state keeps, the last pulse's when one row fires several and the one
before when none fires, is the model's choice (log 20). -/
def Obligations.FiringRuleByGateAndLog : Prop :=
  ∀ (mirror : MirrorCount) (head : HeadCount) (i : Fin 8) (start : HeadCount × Tick) (n : Nat) (s : State),
    s.active = true → s.hdu.state = .sweeping → s.hdu.referenceStart = some start →
    (followingExact start s.hdu.rate head s.now).natAbs ≤ 256 * 80000000 →
    s.mdu.state ≠ .parking → s.mdu.state ≠ .parked →
    s.las.filling = some i → s.las.slots[i].mode = .firing →
    s.las.slots[i].next + n ≤ s.las.slots[i].scheduled →
    ∀ pos : Nat → Nat, (∀ k, pos k = s.scu.profile.windowStart
      + k * (s.scu.profile.windowEnd + 1 - s.scu.profile.windowStart) / s.scu.profile.pulses.toNat) →
    (∀ k, k < n → pos (s.las.slots[i].next + k) ≤ mirror.toNat) →
    (s.las.slots[i].next + n < s.las.slots[i].scheduled → mirror.toNat < pos (s.las.slots[i].next + n)) →
    ∀ u, u = (s.setPins { s.pins with mirrorCount := mirror, headCount := head }).setHdu { s.hdu with
      lastFollowing := followingWhole (followingExact start s.hdu.rate head s.now) } →
    (s.lec.state = .leased → ∀ fires, fires = min n (32 - s.rtu.fireLog.length) →
      exec (.pulseOpportunity mirror head) s = .next ((u.setRtu { s.rtu with
          strobe := if fires = 0 then s.rtu.strobe else some (s.rtu.nextSeq + BitVec.ofNat 16 (fires - 1))
          nextSeq := s.rtu.nextSeq + BitVec.ofNat 16 fires
          fireLog := s.rtu.fireLog ++ (List.range fires).map fun k =>
            { seq := s.rtu.nextSeq + BitVec.ofNat 16 k, slot := i, pulse := s.las.slots[i].next + k, mirror := mirror,
              head := head, tick := s.now } }).setSlot i { s.las.slots[i] with
          fired := Nat.repeat (satInc 8192) fires s.las.slots[i].fired
          skipped := Nat.repeat (satInc 8192) (n - fires) s.las.slots[i].skipped
          next := s.las.slots[i].next + n })) ∧
    (s.lec.state ≠ .leased →
      exec (.pulseOpportunity mirror head) s = .next (u.setSlot i { s.las.slots[i] with
        next := s.las.slots[i].next + n }))

/-- A return record at the open port: one that fails the check is counted and discarded; a good one that finds the holding
slot occupied is an overrun. In MATCHING with the Point Former free, the first entry whose low byte agrees, and whose full
sequence agrees with a marked record's (seq low 0), is matched: entries ahead of it are LOST, it goes with the record to the
Point Former for 27 ticks a written echo, 8 with none; a record that finds no such entry is stray and leads to HUNT. In HUNT
an unmarked record is discarded; a marked one acts by its distance d from the head entry: matched, all entries LOST, or
discarded. -/
def Obligations.ReturnRecordsByCase : Prop :=
  ∀ (r : WireRecord) (s : State), s.phase = .running → s.rtu.discardNext = false →
    ((r.checkAgrees = false ∨ 4 < r.echoCount.toNat ∨ r.echoes.length ≠ r.echoCount.toNat ∨
        (r.seqLow = 0 ∧ r.seqHigh = none) ∨ (r.seqLow ≠ 0 ∧ r.seqHigh ≠ none)) →
      exec (.returnRecordComplete r) s =
        .next (s.setRtu { s.rtu with rxRecordError := satInc 65535 s.rtu.rxRecordError })) ∧
    (r.checkAgrees = true → r.echoCount.toNat ≤ 4 → r.echoes.length = r.echoCount.toNat →
      ((r.seqLow ≠ 0 ∧ r.seqHigh = none) ∨ (r.seqLow = 0 ∧ r.seqHigh ≠ none)) →
      (∀ x, s.rtu.holding = some x →
        exec (.returnRecordComplete r) s = .next (s.setRtu { s.rtu with rxOverrun := satInc 65535 s.rtu.rxOverrun })) ∧
      (s.rtu.holding = none → s.pfm = none →
        (∀ i, s.las.filling = some i → s.las.slots[i].mode = .firing →
          (∀ (passed : List FireEntry) (e : FireEntry) (rest : List FireEntry), s.rtu.fireLog = passed ++ e :: rest →
            (∀ p ∈ passed, p.slot = i) →
            ((s.rtu.matcher = .matching ∧ (∀ p ∈ passed, p.seq.setWidth 8 ≠ r.seqLow) ∧ e.seq.setWidth 8 = r.seqLow ∧
                ∀ high : Byte, r.seqHigh = some high → (high ++ r.seqLow : Serial) = e.seq) ∨
              (s.rtu.matcher = .hunt ∧ ∃ high h, r.seqHigh = some high ∧ (passed ++ [e]).head? = some h ∧
                ((high ++ r.seqLow : Serial) - h.seq).toNat = passed.length)) →
            exec (.returnRecordComplete r) s = .next (((s.setRtu { s.rtu with
                fireLog := rest, matcher := .matching }).setSlot i { s.las.slots[i] with
                lost := Nat.repeat (satInc 8192) passed.length s.las.slots[i].lost }).setPfm
              (some { entry := e, record := { seqLow := r.seqLow, seqHigh := r.seqHigh, echoes := r.echoes },
                      doneAt := ticksAfter s.now (if r.echoes.length = 0 then 8
                        else if s.las.slots[e.slot].echoMode = .all then 27 * r.echoes.length else 27) }))) ∧
          (∀ h high, s.rtu.fireLog.head? = some h → r.seqHigh = some high → s.rtu.matcher = .hunt →
            (∀ p ∈ s.rtu.fireLog, p.slot = i) →
            s.rtu.fireLog.length ≤ ((high ++ r.seqLow : Serial) - h.seq).toNat →
            ((high ++ r.seqLow : Serial) - h.seq).toNat < 32768 →
            exec (.returnRecordComplete r) s = .next ((s.setRtu { s.rtu with fireLog := [] }).setSlot i
              { s.las.slots[i] with
                lost := Nat.repeat (satInc 8192) s.rtu.fireLog.length s.las.slots[i].lost })) ∧
          (∀ h high, s.rtu.fireLog.head? = some h → r.seqHigh = some high → s.rtu.matcher = .hunt →
            s.rtu.fireLog.length ≤ 32768 → 32768 ≤ ((high ++ r.seqLow : Serial) - h.seq).toNat →
            exec (.returnRecordComplete r) s = .next s)) ∧
        ((∀ i, s.las.filling = some i → s.las.slots[i].mode = .firing) →
          (s.rtu.matcher = .matching →
            ((∀ p ∈ s.rtu.fireLog, p.seq.setWidth 8 ≠ r.seqLow) ∨
              ∃ p high, s.rtu.fireLog.find? (fun p => p.seq.setWidth 8 == r.seqLow) = some p ∧ r.seqHigh = some high ∧
                (high ++ r.seqLow : Serial) ≠ p.seq) →
            exec (.returnRecordComplete r) s = .next (s.setRtu { s.rtu with
              matcher := .hunt, strayRecords := satInc 65535 s.rtu.strayRecords })) ∧
          (s.rtu.matcher = .hunt → (r.seqHigh = none ∨ s.rtu.fireLog = []) →
            exec (.returnRecordComplete r) s = .next s))))

/-- The return timeout of the head entry retires it LOST; the Point Former's hand-over writes the point into the slot its
entry names and counts it matched, an empty one only where empty points are kept (a line in FIRING, no record waiting). The
point itself: the angles corrected by pages 0 and 1, the echoes selected by the line's echo mode, each range corrected by page
2. -/
def Obligations.TimeoutsAndHandoversReachTheLine : Prop :=
  (∀ (i : Fin 8) (s : State), s.active = true → s.las.filling = some i → s.las.slots[i].mode = .firing →
    s.rtu.holding = none →
    (∀ e rest, s.rtu.fireLog = e :: rest → e.slot = i → ticksAfter e.tick 8000 = s.now →
      exec .returnTimeout s = .next ((s.setRtu { s.rtu with fireLog := rest }).setSlot i { s.las.slots[i] with
        lost := satInc 8192 s.las.slots[i].lost })) ∧
    (∀ w : PointWork, s.pfm = some w → w.entry.slot = i → w.doneAt = s.now →
      (w.record.echoes ≠ [] ∨ s.las.slots[i].keepEmpty = true) →
      exec .pointHandover s = .next ((s.setSlot i { s.las.slots[i] with
        matched := satInc 8192 s.las.slots[i].matched,
        points := s.las.slots[i].points ++
          [formPoint s.cal.working s.las.slots[i].echoMode w.entry w.record] }).setPfm none)) ∧
    (∀ w : PointWork, s.pfm = some w → w.entry.slot = i → w.doneAt = s.now → w.record.echoes = [] →
      s.las.slots[i].keepEmpty = false →
      exec .pointHandover s = .next ((s.setSlot i { s.las.slots[i] with
        matched := satInc 8192 s.las.slots[i].matched,
        omittedEmpty := satInc 8192 s.las.slots[i].omittedEmpty }).setPfm none))) ∧
  ∀ (w : Pages) (mode : EchoMode) (e : FireEntry) (r : ReturnRecord), PointFormed w mode e r (formPoint w mode e r)

/-! ### Photo runs -/

/-- PHOTO_RUN_START is refused with STATE whatever of R142 forbids the run. Taken, no driver fault input taking the head out of
UNPOWERED or the mirror out of STOPPED into a fault: the run list is the PLANNED stations in ascending order, the owners PHOTO,
positioning of the first begins with its two targets and the 10 s timer; the mirror parks and the interlock is not satisfied;
HEAD_IDLE falls if the head was IDLE, and the mirror's conditions fall. Where a driver fault input does, the command is
answered OK and the run ends at once INTERRUPTED, with cause HEAD_FAULT or MIRROR_STALL. -/
def Obligations.PhotoRunStartPositions : Prop :=
  ∀ (tag : Byte) (s : State), Accepts s →
    ((s.scu.state ≠ .idle ∨ s.phu.state ≠ .idle ∨ s.lec.state = .leased ∨ s.hdu.owner ≠ .none ∨ s.hdu.state = .fault ∨
        s.mdu.owner ≠ .none ∨ s.mdu.state = .stalled ∨ (∀ i : Fin 32, s.phu.stations[i].state ≠ .planned) ∨
        s.phu.runEndWaits = true) →
      OnlyAnswered (.photoRunStart tag) s { kind := 0x98, tag := tag, payload := [0x01] }) ∧
    (∀ first rest, s.phu.planned = first :: rest → LaserSafe s → s.scu.state = .idle → s.phu.state = .idle →
      s.lec.state ≠ .leased → s.hdu.owner = .none → s.hdu.state ≠ .fault → s.mdu.owner = .none →
      s.mdu.state ≠ .stalled → s.phu.runEndWaits = false →
      ((s.hdu.state ≠ .unpowered ∨ s.pins.headFault = false) → (s.mdu.state ≠ .stopped ∨ s.pins.mirrorFault = false) →
        ∃ t, exec (.photoRunStart tag) s = .next t ∧ t.phu.state = .positioning ∧ t.phu.runList = first :: rest ∧
          t.phu.position = 0 ∧ t.phu.exposure = 0 ∧ t.phu.done = 0 ∧ t.phu.missed = 0 ∧ t.phu.readOut = 0 ∧
          t.phu.result = .none ∧ t.phu.endCause = .none ∧ t.phu.positioningEnd = some (ticksAfter s.now 400000000) ∧
          t.phu.nextSerial = s.phu.nextSerial ∧ t.phu.stations = s.phu.stations ∧
          t.hdu.owner = .photo ∧ (t.hdu.state = .slewing ∨ t.hdu.state = .settling) ∧
          t.hdu.target = cameraAzimuth s.cal.working s.phu.stations[first].azimuth ∧
          t.mdu.owner = .photo ∧ t.mdu.state = .parking ∧
          t.mdu.parkTarget = cameraElevation s.cal.working s.phu.stations[first].elevation ∧
          t.lec.state = .lockedOut ∧ t.lec.satisfied = false ∧ t.scu = s.scu ∧ t.cal = s.cal ∧ t.rtu = s.rtu ∧
          Reported ((if s.hdu.state = .idle then s.edge .headIdle false else []) ++ s.mirrorFalls) s t ∧
          Answered s t { kind := 0x98, tag := tag, payload := 0x00 :: (byte (rest.length + 1) ++ byte first.val) }) ∧
      (((s.hdu.state = .unpowered ∧ s.pins.headFault = true) ∨ (s.mdu.state = .stopped ∧ s.pins.mirrorFault = true)) →
        ∃ t, exec (.photoRunStart tag) s = .next t ∧ t.phu.state = .idle ∧ t.phu.runList = first :: rest ∧
          t.phu.result = .interrupted ∧ t.phu.done = 0 ∧ t.phu.missed = 0 ∧ t.phu.readOut = 0 ∧
          t.phu.positioningEnd = none ∧ t.phu.stations = s.phu.stations ∧ t.hdu.owner = .none ∧ t.mdu.owner = .none ∧
          (s.hdu.state = .unpowered → s.pins.headFault = true → t.hdu.state = .fault ∧ t.hdu.faultReason = .driver ∧
            ((s.mdu.state ≠ .stopped ∨ s.pins.mirrorFault = false) → t.phu.endCause = .headFault)) ∧
          (s.mdu.state = .stopped → s.pins.mirrorFault = true → t.mdu.state = .stalled ∧ t.mdu.stallReason = .driver ∧
            ((s.hdu.state ≠ .unpowered ∨ s.pins.headFault = false) → t.phu.endCause = .mirrorStall)) ∧
          t.scu = s.scu ∧ t.cal = s.cal ∧ t.rtu = s.rtu ∧
          Answered s t { kind := 0x98, tag := tag, payload := 0x00 :: (byte (rest.length + 1) ++ byte first.val) }))

/-- PHOTO_RUN_ABORT of an active run: IDLE, ABORTED by HOST_ABORT, both owners NONE, the sensor stopped, an exposure in
progress (whose slot is not in the TILE source) discarded to FREE, FRAMES_FULL falling if it was true (on an idle lane its
frame begins ahead of PHOTO_RUN_END and the reply: the model's reading, log 16, log 22), the station table and the serials as
they stand, PHOTO_RUN_END behind what waits; the reply carries the run state (its number is the model's choice, log 36) and
whether an exposure was discarded. In IDLE it is refused with STATE. -/
def Obligations.PhotoRunAbortEndsTheRun : Prop :=
  ∀ (tag : Byte) (s : State), Accepts s →
    (s.phu.state ≠ .idle → s.hdu.owner = .photo → s.mdu.owner = .photo →
      ∃ t, exec (.photoRunAbort tag) s = .next t ∧ RunEnded .aborted .hostAbort s t ∧
        t.hdu = { s.hdu with owner := .none } ∧ t.mdu = { s.mdu with owner := .none } ∧ t.scu = s.scu ∧ t.lec = s.lec ∧
        t.cal = s.cal ∧ t.rtu = s.rtu ∧ t.tbu = s.tbu ∧ Reported s.discardFalls s t ∧
        Answered s t { kind := 0x99, tag := tag,
                       payload := 0x00 :: (byte s.phu.state.ctorIdx ++ flag s.phu.exposureHeld.isSome) }) ∧
    (s.phu.state = .idle → ∃ t, exec (.photoRunAbort tag) s = .next t ∧ t.inner = s.inner ∧ Undisturbed s t ∧
      Answered s t { kind := 0x99, tag := tag, payload := [0x01] })

/-- An exposure's way. The event that completes the positioning, the head's IDLE with the mirror PARKED or the mirror's PARKED
with the head IDLE, stops the positioning timer and starts the exposure in the lowest FREE slot, or the run waits. The sample
writes both counts into the header; the exposure's end leads to READOUT for 40 ms; the readout's end makes the slot READY with
its image in the model's canonical form (log 21), counts it, appends it to the TILE source, and begins the next exposure; the
last one makes the station DONE and reports it, and the next station is positioned or the run ends COMPLETE. The positioning
timeout makes the station MISSED (here the last one, which completes the run). -/
def Obligations.ExposuresGoTheirWay : Prop :=
  ∀ (i : Fin 2) (s : State), s.active = true →
    (∀ st e, s.phu.current = some st → s.phu.stations[st].exposures[s.phu.exposure]? = some e →
      s.phu.state = .positioning →
      (s.hdu.state = .settling → s.hdu.settleTimer = some s.now → s.hdu.owner = .photo →
        ∃ t, exec .headSettleExpiry s = .next t ∧
          t.hdu = { s.hdu with state := .idle, slewTimer := none, settleTimer := none } ∧
          (s.mdu.state = .parked → t.phu.positioningEnd = none ∧ t.phu.exposure = s.phu.exposure ∧
            ExposureBegun st e s t ∧ Reported (s.edge .headIdle true ++ s.startRises) s t) ∧
          (s.mdu.state ≠ .parked → Arbited s t ∧ Reported (s.edge .headIdle true) s t)) ∧
      (s.mdu.state = .parking → s.mdu.parkSettle = some s.now → s.mdu.owner = .photo →
        ∃ t, exec .parkSettleExpiry s = .next t ∧
          t.mdu = { s.mdu with state := .parked, parkTimer := none, parkSettle := none } ∧
          (s.hdu.state = .idle → t.phu.positioningEnd = none ∧ t.phu.exposure = s.phu.exposure ∧
            ExposureBegun st e s t ∧ Reported s.startRises s t) ∧
          (s.hdu.state ≠ .idle → t.phu = s.phu ∧ Reported [] s t))) ∧
    (∀ (head : HeadCount) (mirror : MirrorCount), s.phu.state = .exposing → s.phu.slotInUse = some i →
      s.phu.slots[i].headAzimuth = none → s.hdu.state ≠ .sweeping →
      ticksAfter s.phu.slots[i].startTick (s.phu.slots[i].time * 20) = s.now →
      (∃ t, exec (.midExposureSample head mirror) s = .next t ∧
        t.pins = { s.pins with mirrorCount := mirror, headCount := head } ∧
        t.phu = s.phu.setFrame i { s.phu.slots[i] with headAzimuth := some head, mirrorCount := some mirror }) ∧
      (s.hdu.state = .idle → s.mdu.state = .parked → s.mdu.parkExcursion = none → parkDistance s.mdu.parkTarget mirror ≤ 16 →
        exec (.midExposureSample head mirror) s = .next
          ((s.setPins { s.pins with mirrorCount := mirror, headCount := head }).setFrame i { s.phu.slots[i] with
            headAzimuth := some head, mirrorCount := some mirror }))) ∧
    (s.phu.state = .exposing → s.phu.slotInUse = some i → s.phu.phaseEnd = some s.now →
      exec .exposureEnd s = .next (s.setPhu { s.phu.setFrame i { s.phu.slots[i] with state := .readout } with
        state := .readout, phaseEnd := some (ticksAfter s.now 1600000) })) ∧
    (∀ image : PixelList, s.phu.state = .readout → s.phu.slotInUse = some i → s.phu.phaseEnd = some s.now →
      s.oba.lane ≠ none →
      (s.phu.moreExposures = true → s.phu.freeFrame = none →
        exec (.readoutEnd image) s = .next (s.setPhu
          { s.phu.setFrame i { s.phu.slots[i] with state := .ready, image := canonicalImage image } with
            state := .waitFrame, slotInUse := none, phaseEnd := none, readOut := s.phu.readOut + 1,
            serials := s.phu.serials ++ [s.phu.slots[i].serial], exposure := s.phu.exposure + 1,
            source := s.phu.source ++ [.frame i] })) ∧
      (∀ st e, s.phu.current = some st → s.phu.stations[st].exposures[s.phu.exposure + 1]? = some e →
        s.phu.slots[i].state = .readout → ∃ t, exec (.readoutEnd image) s = .next t ∧ ExposureBegun st e s t ∧
          t.phu.exposure = s.phu.exposure + 1 ∧ t.phu.readOut = s.phu.readOut + 1 ∧
          t.phu.slots[i] = { s.phu.slots[i] with state := .ready, image := canonicalImage image } ∧
          t.phu.source = s.phu.source ++ [.frame i] ∧ Reported s.startRises s t ∧ t.hdu = s.hdu ∧ t.mdu = s.mdu) ∧
      (∀ st, s.phu.current = some st → s.phu.stations[st].exposures.length = s.phu.exposure + 1 →
        (s.phu.position + 1 = s.phu.runList.length → ∃ t, exec (.readoutEnd image) s = .next t ∧
          t.phu.state = .idle ∧ t.phu.result = .complete ∧ t.phu.endCause = .none ∧ t.phu.stations[st].state = .done ∧
          (∀ x, x ≠ st → t.phu.stations[x] = s.phu.stations[x]) ∧ t.phu.done = s.phu.done + 1 ∧
          t.phu.missed = s.phu.missed ∧ (s.hdu.owner = .photo → t.hdu = { s.hdu with owner := .none }) ∧
          t.mdu = { s.mdu with owner := .none } ∧ t.sensorDrive = .stopped ∧ Reported [] s t ∧
          t.phu.source = s.phu.source ++ [.frame i, .stationDone
              { station := st, missed := false, serials := s.phu.serials ++ [s.phu.slots[i].serial], tick := s.now },
            .runEnd { result := .complete, endCause := .none, stations := s.phu.runList.length, done := s.phu.done + 1,
                      missed := s.phu.missed, exposures := s.phu.readOut + 1, discarded := false, tick := s.now }]) ∧
        (∀ next, s.phu.runList[s.phu.position + 1]? = some next → s.hdu.state = .idle → s.mdu.state = .parked →
          ∃ t, exec (.readoutEnd image) s = .next t ∧ t.phu.state = .positioning ∧
          t.phu.position = s.phu.position + 1 ∧ t.phu.exposure = 0 ∧ t.phu.serials = [] ∧
          t.phu.positioningEnd = some (ticksAfter s.now 400000000) ∧ t.phu.stations[st].state = .done ∧
          t.phu.done = s.phu.done + 1 ∧ (t.hdu.state = .slewing ∨ t.hdu.state = .settling) ∧
          t.hdu.owner = s.hdu.owner ∧ t.mdu.state = .parking ∧ t.mdu.owner = s.mdu.owner ∧
          (next ≠ st → t.hdu.target = cameraAzimuth s.cal.working s.phu.stations[next].azimuth ∧
            t.mdu.parkTarget = cameraElevation s.cal.working s.phu.stations[next].elevation) ∧
          Reported (s.edge .headIdle false) s t ∧
          t.phu.source = s.phu.source ++ [.frame i, .stationDone
            { station := st, missed := false, serials := s.phu.serials ++ [s.phu.slots[i].serial], tick := s.now }]))) ∧
    (∀ st : Fin 32, s.phu.state = .positioning → s.phu.positioningEnd = some s.now → s.phu.current = some st →
      s.phu.position + 1 = s.phu.runList.length →
      ∃ t, exec .positioningTimeout s = .next t ∧ t.phu.state = .idle ∧ t.phu.result = .complete ∧
        t.phu.stations[st].state = .missed ∧ t.phu.missed = s.phu.missed + 1 ∧ t.phu.done = s.phu.done ∧
        t.phu.positioningEnd = none ∧ (s.hdu.owner = .photo → t.hdu.owner = .none) ∧ t.mdu.owner = .none ∧
        Reported [] s t)

/-- Every image the sensor gives is kept in canonical form, pixel for pixel (the form is the model's choice, log 21), and no
step spoils the form of an image in the frame store. -/
def Obligations.ImagesAreCanonical : Prop :=
  (∀ (image : PixelList), PixelList.wf (canonicalImage image) = true ∧
    ∀ n, readPixel (canonicalImage image) n = if n < 3145728 then readPixel image n else 0) ∧
  ∀ s t : State, s.imagesWf → step s = .next t → t.imagesWf

/-! ### Timebase, resets and start-up -/

/-- TIMEBASE_RESTORE: in FALLBACK with the reference present the source becomes EXTERNAL and a FINE mirror falls to COARSE
with its fine run emptied, TIMEBASE_EXTERNAL rising before MIRROR_FINE falls; without the reference it is refused with STATE;
in EXTERNAL it is OK and changes nothing. -/
def Obligations.TimebaseRestoreSwitches : Prop :=
  ∀ (tag : Byte) (s : State), Accepts s →
    (s.tbu.source = .fallback → s.tbu.referencePresent = true → ∃ t, exec (.timebaseRestore tag) s = .next t ∧
      t.tbu = { s.tbu with source := .external } ∧
      (s.mdu.state = .fine → t.mdu = { s.mdu with state := .coarse, fineRun := 0, switchMark := true }) ∧
      (s.mdu.state = .coarse → t.mdu = { s.mdu with fineRun := 0, switchMark := true }) ∧
      t.lec = s.lec ∧ t.scu = s.scu ∧ t.hdu = s.hdu ∧ t.cal = s.cal ∧ t.rtu = s.rtu ∧ t.pins = s.pins ∧ Arbited s t ∧
      Reported (s.edge .timebaseExternal true ++ if s.mdu.state = .fine then s.edge .mirrorFine false else []) s t ∧
      Answered s t { kind := 0x9C, tag := tag, payload := [0x00, 0x01, 0x00] }) ∧
    (s.tbu.source = .fallback → s.tbu.referencePresent = false → ∃ t, exec (.timebaseRestore tag) s = .next t ∧
      t.inner = s.inner ∧ Undisturbed s t ∧ Answered s t { kind := 0x9C, tag := tag, payload := [0x01, 0x01, 0x01] }) ∧
    (s.tbu.source = .external → ∃ t, exec (.timebaseRestore tag) s = .next t ∧
      t.inner = s.inner ∧ Undisturbed s t ∧ Answered s t { kind := 0x9C, tag := tag, payload := [0x00, 0x00, 0x00] })

/-- The reference: a loss in FALLBACK and a return change reference present alone; a loss in EXTERNAL switches the source, marks
the FILLING line and the exposure in progress, TIMEBASE_EXTERNAL falling before MIRROR_FINE, and changes nothing while the part
loads but the source. -/
def Obligations.ReferenceLossAndReturn : Prop :=
  ∀ s : State, s.active = true →
    exec .referenceReturn s = .next (s.setTbu { s.tbu with referencePresent := true }) ∧
    (s.tbu.referencePresent = true → s.tbu.source = .fallback →
      exec .referenceLoss s = .next (s.setTbu { s.tbu with referencePresent := false })) ∧
    (s.tbu.referencePresent = true → s.tbu.source = .external → s.phase = .loading →
      exec .referenceLoss s = .next (s.setTbu { s.tbu with referencePresent := false, source := .fallback })) ∧
    (s.tbu.referencePresent = true → s.tbu.source = .external → s.phase = .running →
      ∃ t, exec .referenceLoss s = .next t ∧ t.tbu = { s.tbu with referencePresent := false, source := .fallback } ∧
        (∀ i, t.las.filling = some i → t.las.slots[i].timebaseFallback = true) ∧
        (s.mdu.state = .fine → t.mdu = { s.mdu with state := .coarse, fineRun := 0, switchMark := true }) ∧
        (∀ i, s.phu.exposureHeld = some i → t.phu.slots[i].fallback = true) ∧
        Reported (s.edge .timebaseExternal false ++ if s.mdu.state = .fine then s.edge .mirrorFine false else []) s t ∧
        t.lec = s.lec ∧ t.scu = s.scu ∧ t.hdu = s.hdu ∧ t.rtu = s.rtu)

/-- RESET of length 0 gets no reply and enters the reset wait. In it, while a frame is being sent or a page write is in progress,
host command rows, inbound bytes and SOFT_RESET_PROCEED change nothing; the end of the lane's frame takes its item on and begins
no further frame, and a held command is not taken; a page write ends with its outcome, no further page begins and no STORE_DONE
is appended, the store record else as it stands (the model's reading, log 23). The soft reset proceeds when no frame is being
sent and no page write is in progress: queues discarded, blocks at their values after reset, the tick counter, the inputs and
the store pages kept. No command acts between: whichever comes next finds the part as the reset has left it (log 5). -/
def Obligations.SoftResetWaitsThenProceeds : Prop :=
  ∀ (tag : Byte) (s : State),
    (Accepts s → exec (.reset tag) s = .next ((s.setLnk { s.lnk with rx := .hunt, sawC3 := false, assembly := [] }).setPhase
      .resetWait)) ∧
    (s.phase = .resetWait → (s.oba.lane ≠ none ∨ s.cal.page ≠ none) →
      exec .softResetProceed s = .next s ∧ (∀ c : HostCmd, exec (hostRow tag c) s = .next s) ∧
      (∀ (kind : Byte) (payload : List Byte), exec (.unknownKind tag kind payload) s = .next s) ∧
      (∀ bytes : List Byte, exec (.inboundFrameComplete bytes) s = .next s ∧ exec (.syncPairFound bytes) s = .next s ∧
        exec (.lengthAbove4096 bytes) s = .next s) ∧
      (∀ x, s.oba.lane = some x → x.endTick = s.now →
        ∃ t, exec .outboundFrameEnd s = .next t ∧ t.oba = { s.oba with lane := none } ∧ t.lnk = s.lnk ∧
          t.inner = s.inner ∧
          ((x.item = .ready ∨ x.item = .reply ∨ x.item = .event ∨ x.item = .sweepEnd ∨ x.item = .tileReport) →
            t = s.setOba { s.oba with lane := none })) ∧
      (∀ agrees : Bool, ∀ p, s.cal.page = some p → s.cal.pageWriteEnd = some s.now →
        ∃ t, exec (.pageWriteEnd agrees) s = .next t ∧ t = (s.setFreeDraw (s.freeDraw + 1)).setCal t.cal ∧
          t.cal = { s.cal with
            stored := copyPage p s.cal.working s.cal.stored, page := none, pageWriteEnd := none,
            outcomes := s.cal.outcomes ++ [(p, agrees)],
            unsaved := if agrees then s.cal.unsaved.remove p else s.cal.unsaved,
            invalid := if agrees then s.cal.invalid.remove p else s.cal.invalid,
            checkAgrees := t.cal.checkAgrees } ∧
          (agrees = true → t.cal.checkAgrees = s.cal.checkAgrees.add p))) ∧
    (s.phase = .resetWait → s.oba.lane = none → s.cal.page = none → ∃ t, exec .softResetProceed s = .next t ∧
      t.phase = .loading ∧ t.resetCause = .soft ∧ t.tbu = s.tbu ∧ t.pins = s.pins ∧ t.scu = Scu.reset ∧
      t.las = Las.reset ∧ t.rtu = Rtu.reset ∧ t.pfm = none ∧ t.mdu = Mdu.reset ∧ t.hdu = Hdu.reset ∧ t.phu = Phu.reset ∧
      t.sensorDrive = .stopped ∧ t.lnk = Lnk.reset ∧ t.evr = Evr.reset ∧ t.oba = Oba.reset ∧
      t.lec.state = .lockedOut ∧ t.lec.token = none ∧ t.lec.ilkHigh = s.lec.ilkHigh ∧ t.cal.state = .loading ∧
      t.cal.stored = s.cal.stored ∧ ∀ c : Instr, exec c s = exec c t)

/-- A power-on reset and a loss of the supply take effect at once from every phase: the lane is cut, the drives removed, the
image sensor stopped, no page write goes on; the release leads to loading with every block at its value after reset and the
tick counter 0. -/
def Obligations.PowerOnResetTakesEffectAtOnce : Prop :=
  ∀ s : State,
    (∃ t, exec .powerOnReset s = .next t ∧ t.phase = .held ∧ t.oba.lane = none ∧ t.rtu.strobe = none ∧ t.cal.page = none ∧
      t.mirrorDrive = .removed ∧ t.headDrive = .removed ∧ t.sensorDrive = .stopped ∧ t.cal.invalid = s.cal.invalid) ∧
    (∃ t, exec .supplyLoss s = .next t ∧ t.phase = .off ∧ t.oba.lane = none ∧ t.rtu.strobe = none ∧ t.cal.page = none ∧
      t.mirrorDrive = .removed ∧ t.headDrive = .removed ∧ t.sensorDrive = .stopped ∧ t.cal.invalid = s.cal.invalid) ∧
    (s.phase = .held → ∃ t, exec .resetInputRelease s = .next t ∧ t.phase = .loading ∧ t.resetCause = .powerOn ∧
      t.tbu = { tick := 0, source := .fallback, referencePresent := false } ∧ t.scu = Scu.reset ∧ t.las = Las.reset ∧
      t.rtu = Rtu.reset ∧ t.pfm = none ∧ t.mdu = Mdu.reset ∧ t.hdu = Hdu.reset ∧ t.phu = Phu.reset ∧
      t.lnk = Lnk.reset ∧ t.evr = Evr.reset ∧ t.oba = Oba.reset ∧ t.lec.state = .lockedOut ∧
      t.cal.stored = s.cal.stored ∧ t.cal.state = .loading)

/-- The end of loading: the store enters IDLE, the source is EXTERNAL exactly when the reference is present, the part runs, and
READY is on the lane with part code 640, revision 1, reset cause, defaulted mask, source and tick. -/
def Obligations.LoadingEndsWithReady : Prop :=
  ∀ (midRecord : Bool) (s : State), s.phase = .loading →
    ∃ t, exec (.loadingComplete midRecord) s = .next t ∧ t.phase = .running ∧ t.cal = { s.cal with state := .idle } ∧
      t.tbu = { s.tbu with source := if s.tbu.referencePresent then .external else .fallback } ∧
      t.oba.lane = some
        { item := .ready, endTick := ticksAfter s.now 40
          frame := { kind := 0xC0, tag := 0,
                     payload := le 2 640 ++ byte 1 ++ byte s.resetCause.ctorIdx ++ byte s.cal.defaulted.toNat
                       ++ byte (if s.tbu.referencePresent then 0 else 1) ++ le 6 s.now.toNat } } ∧
      t.lnk.rx = .hunt ∧ t.scu = s.scu ∧ t.las = s.las ∧ t.mdu = s.mdu ∧ t.hdu = s.hdu ∧ t.lec = s.lec ∧ t.phu = s.phu ∧
      t.evr = s.evr ∧ t.rtu = { s.rtu with discardNext := midRecord }
end

