-- ==== Sys2Proof/Laws/Gap.lean ====
section
/-! SUPPORT. What one entry of the gap list holds after a subtraction (R24), and how a list covers an offset (R20). -/

namespace Sys2Proof.Machine

/-- Some entry of a list holds an offset. -/
def gapsHold (l : List Gap) (x : Nat) : Prop := ∃ e ∈ l, e.offset ≤ x ∧ x < e.offset + e.length

theorem GapList.covers_iff (g : GapList) (x : Nat) : g.covers x = true ↔ gapsHold g.entries x := by
  simp only [GapList.covers, gapsHold, List.any_eq_true, Bool.and_eq_true, decide_eq_true_eq]
  exact Iff.rfl

@[simp] theorem gapsHold_nil (x : Nat) : ¬ gapsHold [] x := by rintro ⟨e, h, -⟩; cases h

@[simp] theorem gapsHold_cons (e : Gap) (l : List Gap) (x : Nat) :
    gapsHold (e :: l) x ↔ (e.offset ≤ x ∧ x < e.offset + e.length) ∨ gapsHold l x := by
  simp only [gapsHold, List.mem_cons, exists_eq_or_imp]

@[simp] theorem gapsHold_append (l m : List Gap) (x : Nat) : gapsHold (l ++ m) x ↔ gapsHold l x ∨ gapsHold m x := by
  simp only [gapsHold, List.mem_append, or_and_right, exists_or]

/-- What is left of an entry, case by case (R24). -/
theorem Gap.subtract_cases (e : Gap) (o n : Nat) (room : Bool) :
    ((n = 0 ∨ o + n ≤ e.offset ∨ e.offset + e.length ≤ o) ∧ e.subtract o n room = [e]) ∨
    (o ≤ e.offset ∧ e.offset + e.length ≤ o + n ∧ e.subtract o n room = []) ∨
    (o ≤ e.offset ∧ e.offset < o + n ∧ o + n < e.offset + e.length ∧
      e.subtract o n room = [{ offset := o + n, length := e.offset + e.length - (o + n) }]) ∨
    (e.offset < o ∧ o < e.offset + e.length ∧ e.offset + e.length ≤ o + n ∧
      e.subtract o n room = [{ offset := e.offset, length := o - e.offset }]) ∨
    (e.offset < o ∧ o + n < e.offset + e.length ∧ room = true ∧ e.subtract o n room =
      [{ offset := e.offset, length := o - e.offset }, { offset := o + n, length := e.offset + e.length - (o + n) }]) ∨
    (e.offset < o ∧ o + n < e.offset + e.length ∧ room = false ∧ e.subtract o n room = [e]) := by
  by_cases h1 : n = 0 ∨ o + n ≤ e.offset ∨ e.offset + e.length ≤ o
  · exact .inl ⟨h1, if_pos h1⟩
  · refine .inr ?_
    by_cases h2 : o ≤ e.offset
    · by_cases h3 : e.offset + e.length ≤ o + n
      · exact .inl ⟨h2, h3, (if_neg h1).trans ((if_pos h2).trans (if_pos h3))⟩
      · exact .inr (.inl ⟨h2, by omega, by omega, (if_neg h1).trans ((if_pos h2).trans (if_neg h3))⟩)
    · refine .inr (.inr ?_)
      by_cases h3 : e.offset + e.length ≤ o + n
      · exact .inl ⟨by omega, by omega, h3, (if_neg h1).trans ((if_neg h2).trans (if_pos h3))⟩
      · refine .inr ?_
        cases room
        · exact .inr ⟨by omega, by omega, rfl, (if_neg h1).trans ((if_neg h2).trans ((if_neg h3).trans (if_neg nofun)))⟩
        · exact .inl ⟨by omega, by omega, rfl, (if_neg h1).trans ((if_neg h2).trans ((if_neg h3).trans (if_pos rfl)))⟩

/-- What a subtraction leaves of an entry holds nothing that the entry did not hold. -/
theorem Gap.subtract_sub (e : Gap) (o n x : Nat) (room : Bool) (h : gapsHold (e.subtract o n room) x) :
    e.offset ≤ x ∧ x < e.offset + e.length := by
  rcases e.subtract_cases o n room with
    ⟨_, k⟩ | ⟨_, _, k⟩ | ⟨_, _, _, k⟩ | ⟨_, _, _, k⟩ | ⟨_, _, _, k⟩ | ⟨_, _, _, k⟩ <;>
    rw [k] at h <;> simp only [gapsHold_cons, gapsHold_nil, or_false] at h <;> omega

/-- An offset outside the interval stays. -/
theorem Gap.subtract_keeps (e : Gap) (o n x : Nat) (room : Bool) (h : e.offset ≤ x ∧ x < e.offset + e.length)
    (hx : ¬ (o ≤ x ∧ x < o + n)) : gapsHold (e.subtract o n room) x := by
  rcases e.subtract_cases o n room with
    ⟨_, k⟩ | ⟨_, _, k⟩ | ⟨_, _, _, k⟩ | ⟨_, _, _, k⟩ | ⟨_, _, _, k⟩ | ⟨_, _, _, k⟩ <;>
    rw [k] <;> simp only [gapsHold_cons, gapsHold_nil, or_false] <;> omega

/-- With room for a split, no offset of the interval is left. -/
theorem Gap.subtract_clears (e : Gap) (o n x : Nat) (h1 : o ≤ x) (h2 : x < o + n) :
    ¬ gapsHold (e.subtract o n true) x := by
  rcases e.subtract_cases o n true with
    ⟨_, k⟩ | ⟨_, _, k⟩ | ⟨_, _, _, k⟩ | ⟨_, _, _, k⟩ | ⟨_, _, _, k⟩ | ⟨_, _, h, _⟩
  all_goals first
    | cases h
    | (intro hx; rw [k] at hx; simp only [gapsHold_cons, gapsHold_nil, or_false] at hx <;> omega)

end Sys2Proof.Machine
end

