-- ==== Sys2Proof/Laws/State.lean ====
section
/-! SUPPORT. One lemma for each update: what every field reads after it. -/

namespace Sys2Proof.Machine

@[simp] theorem State.setPending_fields (s : State) (x : List Instr) :
    (s.setPending x).pending = x ∧ (s.setPending x).phase = s.phase ∧ (s.setPending x).resetCause = s.resetCause ∧
    (s.setPending x).tbu = s.tbu ∧ (s.setPending x).pins = s.pins ∧ (s.setPending x).scu = s.scu ∧
    (s.setPending x).las = s.las ∧ (s.setPending x).rtu = s.rtu ∧ (s.setPending x).pfm = s.pfm ∧
    (s.setPending x).mdu = s.mdu ∧ (s.setPending x).hdu = s.hdu ∧ (s.setPending x).lec = s.lec ∧
    (s.setPending x).cal = s.cal ∧ (s.setPending x).phu = s.phu ∧ (s.setPending x).lnk = s.lnk ∧
    (s.setPending x).evr = s.evr ∧ (s.setPending x).oba = s.oba ∧ (s.setPending x).freeDraw = s.freeDraw :=
  ⟨rfl, rfl, rfl, rfl, rfl, rfl, rfl, rfl, rfl, rfl, rfl, rfl, rfl, rfl, rfl, rfl, rfl, rfl⟩

@[simp] theorem State.setPhase_fields (s : State) (x : Phase) :
    (s.setPhase x).pending = s.pending ∧ (s.setPhase x).phase = x ∧ (s.setPhase x).resetCause = s.resetCause ∧
    (s.setPhase x).tbu = s.tbu ∧ (s.setPhase x).pins = s.pins ∧ (s.setPhase x).scu = s.scu ∧
    (s.setPhase x).las = s.las ∧ (s.setPhase x).rtu = s.rtu ∧ (s.setPhase x).pfm = s.pfm ∧
    (s.setPhase x).mdu = s.mdu ∧ (s.setPhase x).hdu = s.hdu ∧ (s.setPhase x).lec = s.lec ∧
    (s.setPhase x).cal = s.cal ∧ (s.setPhase x).phu = s.phu ∧ (s.setPhase x).lnk = s.lnk ∧
    (s.setPhase x).evr = s.evr ∧ (s.setPhase x).oba = s.oba ∧ (s.setPhase x).freeDraw = s.freeDraw :=
  ⟨rfl, rfl, rfl, rfl, rfl, rfl, rfl, rfl, rfl, rfl, rfl, rfl, rfl, rfl, rfl, rfl, rfl, rfl⟩

@[simp] theorem State.setResetCause_fields (s : State) (x : ResetCause) :
    (s.setResetCause x).pending = s.pending ∧ (s.setResetCause x).phase = s.phase ∧
    (s.setResetCause x).resetCause = x ∧ (s.setResetCause x).tbu = s.tbu ∧ (s.setResetCause x).pins = s.pins ∧
    (s.setResetCause x).scu = s.scu ∧ (s.setResetCause x).las = s.las ∧ (s.setResetCause x).rtu = s.rtu ∧
    (s.setResetCause x).pfm = s.pfm ∧ (s.setResetCause x).mdu = s.mdu ∧ (s.setResetCause x).hdu = s.hdu ∧
    (s.setResetCause x).lec = s.lec ∧ (s.setResetCause x).cal = s.cal ∧ (s.setResetCause x).phu = s.phu ∧
    (s.setResetCause x).lnk = s.lnk ∧ (s.setResetCause x).evr = s.evr ∧ (s.setResetCause x).oba = s.oba ∧
    (s.setResetCause x).freeDraw = s.freeDraw :=
  ⟨rfl, rfl, rfl, rfl, rfl, rfl, rfl, rfl, rfl, rfl, rfl, rfl, rfl, rfl, rfl, rfl, rfl, rfl⟩

@[simp] theorem State.setTbu_fields (s : State) (x : Tbu) :
    (s.setTbu x).pending = s.pending ∧ (s.setTbu x).phase = s.phase ∧ (s.setTbu x).resetCause = s.resetCause ∧
    (s.setTbu x).tbu = x ∧ (s.setTbu x).pins = s.pins ∧ (s.setTbu x).scu = s.scu ∧ (s.setTbu x).las = s.las ∧
    (s.setTbu x).rtu = s.rtu ∧ (s.setTbu x).pfm = s.pfm ∧ (s.setTbu x).mdu = s.mdu ∧ (s.setTbu x).hdu = s.hdu ∧
    (s.setTbu x).lec = s.lec ∧ (s.setTbu x).cal = s.cal ∧ (s.setTbu x).phu = s.phu ∧ (s.setTbu x).lnk = s.lnk ∧
    (s.setTbu x).evr = s.evr ∧ (s.setTbu x).oba = s.oba ∧ (s.setTbu x).freeDraw = s.freeDraw :=
  ⟨rfl, rfl, rfl, rfl, rfl, rfl, rfl, rfl, rfl, rfl, rfl, rfl, rfl, rfl, rfl, rfl, rfl, rfl⟩

@[simp] theorem State.setPins_fields (s : State) (x : Pins) :
    (s.setPins x).pending = s.pending ∧ (s.setPins x).phase = s.phase ∧ (s.setPins x).resetCause = s.resetCause ∧
    (s.setPins x).tbu = s.tbu ∧ (s.setPins x).pins = x ∧ (s.setPins x).scu = s.scu ∧ (s.setPins x).las = s.las ∧
    (s.setPins x).rtu = s.rtu ∧ (s.setPins x).pfm = s.pfm ∧ (s.setPins x).mdu = s.mdu ∧ (s.setPins x).hdu = s.hdu ∧
    (s.setPins x).lec = s.lec ∧ (s.setPins x).cal = s.cal ∧ (s.setPins x).phu = s.phu ∧ (s.setPins x).lnk = s.lnk ∧
    (s.setPins x).evr = s.evr ∧ (s.setPins x).oba = s.oba ∧ (s.setPins x).freeDraw = s.freeDraw :=
  ⟨rfl, rfl, rfl, rfl, rfl, rfl, rfl, rfl, rfl, rfl, rfl, rfl, rfl, rfl, rfl, rfl, rfl, rfl⟩

@[simp] theorem State.setScu_fields (s : State) (x : Scu) :
    (s.setScu x).pending = s.pending ∧ (s.setScu x).phase = s.phase ∧ (s.setScu x).resetCause = s.resetCause ∧
    (s.setScu x).tbu = s.tbu ∧ (s.setScu x).pins = s.pins ∧ (s.setScu x).scu = x ∧ (s.setScu x).las = s.las ∧
    (s.setScu x).rtu = s.rtu ∧ (s.setScu x).pfm = s.pfm ∧ (s.setScu x).mdu = s.mdu ∧ (s.setScu x).hdu = s.hdu ∧
    (s.setScu x).lec = s.lec ∧ (s.setScu x).cal = s.cal ∧ (s.setScu x).phu = s.phu ∧ (s.setScu x).lnk = s.lnk ∧
    (s.setScu x).evr = s.evr ∧ (s.setScu x).oba = s.oba ∧ (s.setScu x).freeDraw = s.freeDraw :=
  ⟨rfl, rfl, rfl, rfl, rfl, rfl, rfl, rfl, rfl, rfl, rfl, rfl, rfl, rfl, rfl, rfl, rfl, rfl⟩

@[simp] theorem State.setLas_fields (s : State) (x : Las) :
    (s.setLas x).pending = s.pending ∧ (s.setLas x).phase = s.phase ∧ (s.setLas x).resetCause = s.resetCause ∧
    (s.setLas x).tbu = s.tbu ∧ (s.setLas x).pins = s.pins ∧ (s.setLas x).scu = s.scu ∧ (s.setLas x).las = x ∧
    (s.setLas x).rtu = s.rtu ∧ (s.setLas x).pfm = s.pfm ∧ (s.setLas x).mdu = s.mdu ∧ (s.setLas x).hdu = s.hdu ∧
    (s.setLas x).lec = s.lec ∧ (s.setLas x).cal = s.cal ∧ (s.setLas x).phu = s.phu ∧ (s.setLas x).lnk = s.lnk ∧
    (s.setLas x).evr = s.evr ∧ (s.setLas x).oba = s.oba ∧ (s.setLas x).freeDraw = s.freeDraw :=
  ⟨rfl, rfl, rfl, rfl, rfl, rfl, rfl, rfl, rfl, rfl, rfl, rfl, rfl, rfl, rfl, rfl, rfl, rfl⟩

@[simp] theorem State.setRtu_fields (s : State) (x : Rtu) :
    (s.setRtu x).pending = s.pending ∧ (s.setRtu x).phase = s.phase ∧ (s.setRtu x).resetCause = s.resetCause ∧
    (s.setRtu x).tbu = s.tbu ∧ (s.setRtu x).pins = s.pins ∧ (s.setRtu x).scu = s.scu ∧ (s.setRtu x).las = s.las ∧
    (s.setRtu x).rtu = x ∧ (s.setRtu x).pfm = s.pfm ∧ (s.setRtu x).mdu = s.mdu ∧ (s.setRtu x).hdu = s.hdu ∧
    (s.setRtu x).lec = s.lec ∧ (s.setRtu x).cal = s.cal ∧ (s.setRtu x).phu = s.phu ∧ (s.setRtu x).lnk = s.lnk ∧
    (s.setRtu x).evr = s.evr ∧ (s.setRtu x).oba = s.oba ∧ (s.setRtu x).freeDraw = s.freeDraw :=
  ⟨rfl, rfl, rfl, rfl, rfl, rfl, rfl, rfl, rfl, rfl, rfl, rfl, rfl, rfl, rfl, rfl, rfl, rfl⟩

@[simp] theorem State.setPfm_fields (s : State) (x : Option PointWork) :
    (s.setPfm x).pending = s.pending ∧ (s.setPfm x).phase = s.phase ∧ (s.setPfm x).resetCause = s.resetCause ∧
    (s.setPfm x).tbu = s.tbu ∧ (s.setPfm x).pins = s.pins ∧ (s.setPfm x).scu = s.scu ∧ (s.setPfm x).las = s.las ∧
    (s.setPfm x).rtu = s.rtu ∧ (s.setPfm x).pfm = x ∧ (s.setPfm x).mdu = s.mdu ∧ (s.setPfm x).hdu = s.hdu ∧
    (s.setPfm x).lec = s.lec ∧ (s.setPfm x).cal = s.cal ∧ (s.setPfm x).phu = s.phu ∧ (s.setPfm x).lnk = s.lnk ∧
    (s.setPfm x).evr = s.evr ∧ (s.setPfm x).oba = s.oba ∧ (s.setPfm x).freeDraw = s.freeDraw :=
  ⟨rfl, rfl, rfl, rfl, rfl, rfl, rfl, rfl, rfl, rfl, rfl, rfl, rfl, rfl, rfl, rfl, rfl, rfl⟩

@[simp] theorem State.setMdu_fields (s : State) (x : Mdu) :
    (s.setMdu x).pending = s.pending ∧ (s.setMdu x).phase = s.phase ∧ (s.setMdu x).resetCause = s.resetCause ∧
    (s.setMdu x).tbu = s.tbu ∧ (s.setMdu x).pins = s.pins ∧ (s.setMdu x).scu = s.scu ∧ (s.setMdu x).las = s.las ∧
    (s.setMdu x).rtu = s.rtu ∧ (s.setMdu x).pfm = s.pfm ∧ (s.setMdu x).mdu = x ∧ (s.setMdu x).hdu = s.hdu ∧
    (s.setMdu x).lec = s.lec ∧ (s.setMdu x).cal = s.cal ∧ (s.setMdu x).phu = s.phu ∧ (s.setMdu x).lnk = s.lnk ∧
    (s.setMdu x).evr = s.evr ∧ (s.setMdu x).oba = s.oba ∧ (s.setMdu x).freeDraw = s.freeDraw :=
  ⟨rfl, rfl, rfl, rfl, rfl, rfl, rfl, rfl, rfl, rfl, rfl, rfl, rfl, rfl, rfl, rfl, rfl, rfl⟩

@[simp] theorem State.setHdu_fields (s : State) (x : Hdu) :
    (s.setHdu x).pending = s.pending ∧ (s.setHdu x).phase = s.phase ∧ (s.setHdu x).resetCause = s.resetCause ∧
    (s.setHdu x).tbu = s.tbu ∧ (s.setHdu x).pins = s.pins ∧ (s.setHdu x).scu = s.scu ∧ (s.setHdu x).las = s.las ∧
    (s.setHdu x).rtu = s.rtu ∧ (s.setHdu x).pfm = s.pfm ∧ (s.setHdu x).mdu = s.mdu ∧ (s.setHdu x).hdu = x ∧
    (s.setHdu x).lec = s.lec ∧ (s.setHdu x).cal = s.cal ∧ (s.setHdu x).phu = s.phu ∧ (s.setHdu x).lnk = s.lnk ∧
    (s.setHdu x).evr = s.evr ∧ (s.setHdu x).oba = s.oba ∧ (s.setHdu x).freeDraw = s.freeDraw :=
  ⟨rfl, rfl, rfl, rfl, rfl, rfl, rfl, rfl, rfl, rfl, rfl, rfl, rfl, rfl, rfl, rfl, rfl, rfl⟩

@[simp] theorem State.setLec_fields (s : State) (x : Lec) :
    (s.setLec x).pending = s.pending ∧ (s.setLec x).phase = s.phase ∧ (s.setLec x).resetCause = s.resetCause ∧
    (s.setLec x).tbu = s.tbu ∧ (s.setLec x).pins = s.pins ∧ (s.setLec x).scu = s.scu ∧ (s.setLec x).las = s.las ∧
    (s.setLec x).rtu = s.rtu ∧ (s.setLec x).pfm = s.pfm ∧ (s.setLec x).mdu = s.mdu ∧ (s.setLec x).hdu = s.hdu ∧
    (s.setLec x).lec = x ∧ (s.setLec x).cal = s.cal ∧ (s.setLec x).phu = s.phu ∧ (s.setLec x).lnk = s.lnk ∧
    (s.setLec x).evr = s.evr ∧ (s.setLec x).oba = s.oba ∧ (s.setLec x).freeDraw = s.freeDraw :=
  ⟨rfl, rfl, rfl, rfl, rfl, rfl, rfl, rfl, rfl, rfl, rfl, rfl, rfl, rfl, rfl, rfl, rfl, rfl⟩

@[simp] theorem State.setCal_fields (s : State) (x : Cal) :
    (s.setCal x).pending = s.pending ∧ (s.setCal x).phase = s.phase ∧ (s.setCal x).resetCause = s.resetCause ∧
    (s.setCal x).tbu = s.tbu ∧ (s.setCal x).pins = s.pins ∧ (s.setCal x).scu = s.scu ∧ (s.setCal x).las = s.las ∧
    (s.setCal x).rtu = s.rtu ∧ (s.setCal x).pfm = s.pfm ∧ (s.setCal x).mdu = s.mdu ∧ (s.setCal x).hdu = s.hdu ∧
    (s.setCal x).lec = s.lec ∧ (s.setCal x).cal = x ∧ (s.setCal x).phu = s.phu ∧ (s.setCal x).lnk = s.lnk ∧
    (s.setCal x).evr = s.evr ∧ (s.setCal x).oba = s.oba ∧ (s.setCal x).freeDraw = s.freeDraw :=
  ⟨rfl, rfl, rfl, rfl, rfl, rfl, rfl, rfl, rfl, rfl, rfl, rfl, rfl, rfl, rfl, rfl, rfl, rfl⟩

@[simp] theorem State.setPhu_fields (s : State) (x : Phu) :
    (s.setPhu x).pending = s.pending ∧ (s.setPhu x).phase = s.phase ∧ (s.setPhu x).resetCause = s.resetCause ∧
    (s.setPhu x).tbu = s.tbu ∧ (s.setPhu x).pins = s.pins ∧ (s.setPhu x).scu = s.scu ∧ (s.setPhu x).las = s.las ∧
    (s.setPhu x).rtu = s.rtu ∧ (s.setPhu x).pfm = s.pfm ∧ (s.setPhu x).mdu = s.mdu ∧ (s.setPhu x).hdu = s.hdu ∧
    (s.setPhu x).lec = s.lec ∧ (s.setPhu x).cal = s.cal ∧ (s.setPhu x).phu = x ∧ (s.setPhu x).lnk = s.lnk ∧
    (s.setPhu x).evr = s.evr ∧ (s.setPhu x).oba = s.oba ∧ (s.setPhu x).freeDraw = s.freeDraw :=
  ⟨rfl, rfl, rfl, rfl, rfl, rfl, rfl, rfl, rfl, rfl, rfl, rfl, rfl, rfl, rfl, rfl, rfl, rfl⟩

@[simp] theorem State.setLnk_fields (s : State) (x : Lnk) :
    (s.setLnk x).pending = s.pending ∧ (s.setLnk x).phase = s.phase ∧ (s.setLnk x).resetCause = s.resetCause ∧
    (s.setLnk x).tbu = s.tbu ∧ (s.setLnk x).pins = s.pins ∧ (s.setLnk x).scu = s.scu ∧ (s.setLnk x).las = s.las ∧
    (s.setLnk x).rtu = s.rtu ∧ (s.setLnk x).pfm = s.pfm ∧ (s.setLnk x).mdu = s.mdu ∧ (s.setLnk x).hdu = s.hdu ∧
    (s.setLnk x).lec = s.lec ∧ (s.setLnk x).cal = s.cal ∧ (s.setLnk x).phu = s.phu ∧ (s.setLnk x).lnk = x ∧
    (s.setLnk x).evr = s.evr ∧ (s.setLnk x).oba = s.oba ∧ (s.setLnk x).freeDraw = s.freeDraw :=
  ⟨rfl, rfl, rfl, rfl, rfl, rfl, rfl, rfl, rfl, rfl, rfl, rfl, rfl, rfl, rfl, rfl, rfl, rfl⟩

@[simp] theorem State.setEvr_fields (s : State) (x : Evr) :
    (s.setEvr x).pending = s.pending ∧ (s.setEvr x).phase = s.phase ∧ (s.setEvr x).resetCause = s.resetCause ∧
    (s.setEvr x).tbu = s.tbu ∧ (s.setEvr x).pins = s.pins ∧ (s.setEvr x).scu = s.scu ∧ (s.setEvr x).las = s.las ∧
    (s.setEvr x).rtu = s.rtu ∧ (s.setEvr x).pfm = s.pfm ∧ (s.setEvr x).mdu = s.mdu ∧ (s.setEvr x).hdu = s.hdu ∧
    (s.setEvr x).lec = s.lec ∧ (s.setEvr x).cal = s.cal ∧ (s.setEvr x).phu = s.phu ∧ (s.setEvr x).lnk = s.lnk ∧
    (s.setEvr x).evr = x ∧ (s.setEvr x).oba = s.oba ∧ (s.setEvr x).freeDraw = s.freeDraw :=
  ⟨rfl, rfl, rfl, rfl, rfl, rfl, rfl, rfl, rfl, rfl, rfl, rfl, rfl, rfl, rfl, rfl, rfl, rfl⟩

@[simp] theorem State.setOba_fields (s : State) (x : Oba) :
    (s.setOba x).pending = s.pending ∧ (s.setOba x).phase = s.phase ∧ (s.setOba x).resetCause = s.resetCause ∧
    (s.setOba x).tbu = s.tbu ∧ (s.setOba x).pins = s.pins ∧ (s.setOba x).scu = s.scu ∧ (s.setOba x).las = s.las ∧
    (s.setOba x).rtu = s.rtu ∧ (s.setOba x).pfm = s.pfm ∧ (s.setOba x).mdu = s.mdu ∧ (s.setOba x).hdu = s.hdu ∧
    (s.setOba x).lec = s.lec ∧ (s.setOba x).cal = s.cal ∧ (s.setOba x).phu = s.phu ∧ (s.setOba x).lnk = s.lnk ∧
    (s.setOba x).evr = s.evr ∧ (s.setOba x).oba = x ∧ (s.setOba x).freeDraw = s.freeDraw :=
  ⟨rfl, rfl, rfl, rfl, rfl, rfl, rfl, rfl, rfl, rfl, rfl, rfl, rfl, rfl, rfl, rfl, rfl, rfl⟩

@[simp] theorem State.setFreeDraw_fields (s : State) (x : Nat) :
    (s.setFreeDraw x).pending = s.pending ∧ (s.setFreeDraw x).phase = s.phase ∧
    (s.setFreeDraw x).resetCause = s.resetCause ∧ (s.setFreeDraw x).tbu = s.tbu ∧ (s.setFreeDraw x).pins = s.pins ∧
    (s.setFreeDraw x).scu = s.scu ∧ (s.setFreeDraw x).las = s.las ∧ (s.setFreeDraw x).rtu = s.rtu ∧
    (s.setFreeDraw x).pfm = s.pfm ∧ (s.setFreeDraw x).mdu = s.mdu ∧ (s.setFreeDraw x).hdu = s.hdu ∧
    (s.setFreeDraw x).lec = s.lec ∧ (s.setFreeDraw x).cal = s.cal ∧ (s.setFreeDraw x).phu = s.phu ∧
    (s.setFreeDraw x).lnk = s.lnk ∧ (s.setFreeDraw x).evr = s.evr ∧ (s.setFreeDraw x).oba = s.oba ∧
    (s.setFreeDraw x).freeDraw = x :=
  ⟨rfl, rfl, rfl, rfl, rfl, rfl, rfl, rfl, rfl, rfl, rfl, rfl, rfl, rfl, rfl, rfl, rfl, rfl⟩

@[simp] theorem State.setPending_set (s : State) (x y : List Instr) : (s.setPending x).setPending y = s.setPending y := rfl

@[simp] theorem State.setPending_self (s : State) : s.setPending s.pending = s := rfl

@[simp] theorem State.setPhase_set (s : State) (x y : Phase) : (s.setPhase x).setPhase y = s.setPhase y := rfl

@[simp] theorem State.setPhase_self (s : State) : s.setPhase s.phase = s := rfl

@[simp] theorem State.setResetCause_set (s : State) (x y : ResetCause) : (s.setResetCause x).setResetCause y = s.setResetCause y := rfl

@[simp] theorem State.setResetCause_self (s : State) : s.setResetCause s.resetCause = s := rfl

@[simp] theorem State.setTbu_set (s : State) (x y : Tbu) : (s.setTbu x).setTbu y = s.setTbu y := rfl

@[simp] theorem State.setTbu_self (s : State) : s.setTbu s.tbu = s := rfl

@[simp] theorem State.setPins_set (s : State) (x y : Pins) : (s.setPins x).setPins y = s.setPins y := rfl

@[simp] theorem State.setPins_self (s : State) : s.setPins s.pins = s := rfl

@[simp] theorem State.setScu_set (s : State) (x y : Scu) : (s.setScu x).setScu y = s.setScu y := rfl

@[simp] theorem State.setScu_self (s : State) : s.setScu s.scu = s := rfl

@[simp] theorem State.setLas_set (s : State) (x y : Las) : (s.setLas x).setLas y = s.setLas y := rfl

@[simp] theorem State.setLas_self (s : State) : s.setLas s.las = s := rfl

@[simp] theorem State.setRtu_set (s : State) (x y : Rtu) : (s.setRtu x).setRtu y = s.setRtu y := rfl

@[simp] theorem State.setRtu_self (s : State) : s.setRtu s.rtu = s := rfl

@[simp] theorem State.setPfm_set (s : State) (x y : Option PointWork) : (s.setPfm x).setPfm y = s.setPfm y := rfl

@[simp] theorem State.setPfm_self (s : State) : s.setPfm s.pfm = s := rfl

@[simp] theorem State.setMdu_set (s : State) (x y : Mdu) : (s.setMdu x).setMdu y = s.setMdu y := rfl

@[simp] theorem State.setMdu_self (s : State) : s.setMdu s.mdu = s := rfl

@[simp] theorem State.setHdu_set (s : State) (x y : Hdu) : (s.setHdu x).setHdu y = s.setHdu y := rfl

@[simp] theorem State.setHdu_self (s : State) : s.setHdu s.hdu = s := rfl

@[simp] theorem State.setLec_set (s : State) (x y : Lec) : (s.setLec x).setLec y = s.setLec y := rfl

@[simp] theorem State.setLec_self (s : State) : s.setLec s.lec = s := rfl

@[simp] theorem State.setCal_set (s : State) (x y : Cal) : (s.setCal x).setCal y = s.setCal y := rfl

@[simp] theorem State.setCal_self (s : State) : s.setCal s.cal = s := rfl

@[simp] theorem State.setPhu_set (s : State) (x y : Phu) : (s.setPhu x).setPhu y = s.setPhu y := rfl

@[simp] theorem State.setPhu_self (s : State) : s.setPhu s.phu = s := rfl

@[simp] theorem State.setLnk_set (s : State) (x y : Lnk) : (s.setLnk x).setLnk y = s.setLnk y := rfl

@[simp] theorem State.setLnk_self (s : State) : s.setLnk s.lnk = s := rfl

@[simp] theorem State.setEvr_set (s : State) (x y : Evr) : (s.setEvr x).setEvr y = s.setEvr y := rfl

@[simp] theorem State.setEvr_self (s : State) : s.setEvr s.evr = s := rfl

@[simp] theorem State.setOba_set (s : State) (x y : Oba) : (s.setOba x).setOba y = s.setOba y := rfl

@[simp] theorem State.setOba_self (s : State) : s.setOba s.oba = s := rfl

@[simp] theorem State.setFreeDraw_set (s : State) (x y : Nat) : (s.setFreeDraw x).setFreeDraw y = s.setFreeDraw y := rfl

@[simp] theorem State.setFreeDraw_self (s : State) : s.setFreeDraw s.freeDraw = s := rfl

/-- The tick is the Timebase Unit's. -/
theorem State.now_eq (s : State) : s.now = s.tbu.tick := rfl

theorem State.expiryIn_eq (s : State) (n : Nat) : s.expiryIn n = ticksAfter s.tbu.tick n := rfl

theorem State.due_eq (s : State) (timer : Option Tick) : s.due timer = (timer == some s.tbu.tick) := rfl

@[simp] theorem State.setSlot_las (s : State) (i : Fin 8) (x : LineSlot) : (s.setSlot i x).las = s.las.setSlot i x := rfl

@[simp] theorem State.setFrame_phu (s : State) (i : Fin 2) (x : FrameSlot) :
    (s.setFrame i x).phu = s.phu.setFrame i x := rfl

@[simp] theorem State.setSlot_fields (s : State) (i : Fin 8) (x : LineSlot) :
    (s.setSlot i x).pending = s.pending ∧ (s.setSlot i x).phase = s.phase ∧
    (s.setSlot i x).resetCause = s.resetCause ∧ (s.setSlot i x).tbu = s.tbu ∧ (s.setSlot i x).pins = s.pins ∧
    (s.setSlot i x).scu = s.scu ∧ (s.setSlot i x).rtu = s.rtu ∧ (s.setSlot i x).pfm = s.pfm ∧
    (s.setSlot i x).mdu = s.mdu ∧ (s.setSlot i x).hdu = s.hdu ∧ (s.setSlot i x).lec = s.lec ∧
    (s.setSlot i x).cal = s.cal ∧ (s.setSlot i x).phu = s.phu ∧ (s.setSlot i x).lnk = s.lnk ∧
    (s.setSlot i x).evr = s.evr ∧ (s.setSlot i x).oba = s.oba ∧ (s.setSlot i x).freeDraw = s.freeDraw :=
  ⟨rfl, rfl, rfl, rfl, rfl, rfl, rfl, rfl, rfl, rfl, rfl, rfl, rfl, rfl, rfl, rfl, rfl⟩

@[simp] theorem State.setFrame_fields (s : State) (i : Fin 2) (x : FrameSlot) :
    (s.setFrame i x).pending = s.pending ∧ (s.setFrame i x).phase = s.phase ∧
    (s.setFrame i x).resetCause = s.resetCause ∧ (s.setFrame i x).tbu = s.tbu ∧ (s.setFrame i x).pins = s.pins ∧
    (s.setFrame i x).scu = s.scu ∧ (s.setFrame i x).las = s.las ∧ (s.setFrame i x).rtu = s.rtu ∧
    (s.setFrame i x).pfm = s.pfm ∧ (s.setFrame i x).mdu = s.mdu ∧ (s.setFrame i x).hdu = s.hdu ∧
    (s.setFrame i x).lec = s.lec ∧ (s.setFrame i x).cal = s.cal ∧ (s.setFrame i x).lnk = s.lnk ∧
    (s.setFrame i x).evr = s.evr ∧ (s.setFrame i x).oba = s.oba ∧ (s.setFrame i x).freeDraw = s.freeDraw :=
  ⟨rfl, rfl, rfl, rfl, rfl, rfl, rfl, rfl, rfl, rfl, rfl, rfl, rfl, rfl, rfl, rfl, rfl⟩

/-- A slot written reads back. -/
@[simp] theorem Las.setSlot_get (l : Las) (i : Fin 8) (x : LineSlot) : (l.setSlot i x).slots[i] = x := by
  simp [Las.setSlot]

/-- The same, at the slot's number. -/
@[simp] theorem Las.setSlot_getVal (l : Las) (i : Fin 8) (x : LineSlot) : (l.setSlot i x).slots[i.val] = x := by
  simp [Las.setSlot]

/-- Another slot is unchanged. -/
theorem Las.setSlot_get_ne (l : Las) {i j : Fin 8} (x : LineSlot) (h : j ≠ i) :
    (l.setSlot i x).slots[j] = l.slots[j] := by
  simp only [Las.setSlot, Fin.getElem_fin]
  exact Vector.getElem_set_ne _ _ (fun e => h (Fin.ext e.symm))

/-- A frame slot written reads back. -/
@[simp] theorem Phu.setFrame_get (p : Phu) (i : Fin 2) (x : FrameSlot) : (p.setFrame i x).slots[i] = x := by
  simp [Phu.setFrame]

/-- The same, at the slot's number. -/
@[simp] theorem Phu.setFrame_getVal (p : Phu) (i : Fin 2) (x : FrameSlot) : (p.setFrame i x).slots[i.val] = x := by
  simp [Phu.setFrame]

/-- Another frame slot is unchanged. -/
theorem Phu.setFrame_get_ne (p : Phu) {i j : Fin 2} (x : FrameSlot) (h : j ≠ i) :
    (p.setFrame i x).slots[j] = p.slots[j] := by
  simp only [Phu.setFrame, Fin.getElem_fin]
  exact Vector.getElem_set_ne _ _ (fun e => h (Fin.ext e.symm))

end Sys2Proof.Machine
end

