-- ==== Sys2Proof/Laws/Outbound.lean ====
section
/-! SUPPORT. What the outbound side does: a boundary, the appends and the hand-over of a condition leave every other block as
it stands (`inner`), and by themselves do no more than begin frames (`Arbited`). -/

namespace Sys2Proof.Machine

/-! ### `inner` -/

@[simp] theorem State.inner_setLas (s : State) (x : Las) : (s.setLas x).inner = s.inner := rfl
@[simp] theorem State.inner_setPhu (s : State) (x : Phu) : (s.setPhu x).inner = s.inner := rfl
@[simp] theorem State.inner_setLnk (s : State) (x : Lnk) : (s.setLnk x).inner = s.inner := rfl
@[simp] theorem State.inner_setEvr (s : State) (x : Evr) : (s.setEvr x).inner = s.inner := rfl
@[simp] theorem State.inner_setOba (s : State) (x : Oba) : (s.setOba x).inner = s.inner := rfl
@[simp] theorem State.inner_setSlot (s : State) (i : Fin 8) (x : LineSlot) : (s.setSlot i x).inner = s.inner := rfl
@[simp] theorem State.inner_setFrame (s : State) (i : Fin 2) (x : FrameSlot) : (s.setFrame i x).inner = s.inner := rfl
@[simp] theorem State.inner_send (s : State) (i : LaneItem) (f : Frame) : (s.send i f).inner = s.inner := rfl

/-- States with one `inner` agree on the thirteen other fields. -/
theorem inner_eq {s t : State} (h : t.inner = s.inner) :
    t.pending = s.pending ∧ t.phase = s.phase ∧ t.resetCause = s.resetCause ∧ t.tbu = s.tbu ∧ t.pins = s.pins ∧
    t.scu = s.scu ∧ t.rtu = s.rtu ∧ t.pfm = s.pfm ∧ t.mdu = s.mdu ∧ t.hdu = s.hdu ∧ t.lec = s.lec ∧ t.cal = s.cal ∧
    t.freeDraw = s.freeDraw := by
  rw [State.ext_iff] at h
  simp only [State.inner, State.setLas_fields, State.setPhu_fields, State.setLnk_fields, State.setEvr_fields,
    State.setOba_fields, true_and] at h
  simpa only [and_assoc] using h

@[simp] theorem beginReply_inner (s : State) : (beginReply s).inner = s.inner := by
  unfold beginReply; split <;> simp

@[simp] theorem beginEvent_inner (s : State) : (beginEvent s).inner = s.inner := by
  unfold beginEvent; split <;> simp

@[simp] theorem beginLine_inner (s : State) : (beginLine s).inner = s.inner := by
  unfold beginLine; split <;> simp

@[simp] theorem beginTile_inner (s : State) : (beginTile s).inner = s.inner := by
  unfold beginTile; split <;> simp

@[simp] theorem beginFrame_inner (s : State) (x : Source) : (beginFrame s x).inner = s.inner := by
  cases x <;> simp [beginFrame]

@[simp] theorem boundary_inner (s : State) : (boundary s).inner = s.inner := by
  unfold boundary; split
  · split <;> simp
  · rfl

@[simp] theorem appendReply_inner (f : Frame) (s : State) : (appendReply f s).inner = s.inner := by
  simp [appendReply]

@[simp] theorem appendEvent_inner (b : EventBody) (s : State) : (appendEvent b s).inner = s.inner := by
  unfold appendEvent; split <;> simp

@[simp] theorem appendLine_inner (x : LineItem) (s : State) : (appendLine x s).inner = s.inner := by
  simp [appendLine]

@[simp] theorem appendTile_inner (x : TileItem) (s : State) : (appendTile x s).inner = s.inner := by
  simp [appendTile]

@[simp] theorem reportEdge_inner (c : Condition) (l : Bool) (s : State) : (reportEdge c l s).inner = s.inner := by
  unfold reportEdge; split <;> simp

@[simp] theorem reportChange_inner (c : Condition) (a b : Bool) (s : State) : (reportChange c a b s).inner = s.inner := by
  unfold reportChange; split <;> simp

/-! ### `Arbited` -/

theorem SlotKept.refl (x : LineSlot) : SlotKept x x := .inl rfl

theorem SlotKept.trans {x y z : LineSlot} (h : SlotKept x y) (k : SlotKept y z) : SlotKept x z := by
  rcases h with rfl | rfl <;> rcases k with rfl | rfl
  · exact .inl rfl
  · exact .inr rfl
  · exact .inr rfl
  · exact .inr rfl

theorem FrameKept.refl (x : FrameSlot) : FrameKept x x := .inl rfl

theorem FrameKept.trans {x y z : FrameSlot} (h : FrameKept x y) (k : FrameKept y z) : FrameKept x z := by
  rcases h with rfl | rfl <;> rcases k with rfl | rfl
  · exact .inl rfl
  · exact .inr rfl
  · exact .inr rfl
  · exact .inr rfl

theorem Arbited.refl (s : State) : Arbited s s :=
  ⟨rfl, fun _ => .refl _, List.suffix_refl _, fun _ => .refl _, rfl, List.suffix_refl _, rfl, rfl, rfl, rfl⟩

theorem Arbited.trans {s t u : State} (h : Arbited s t) (k : Arbited t u) : Arbited s u where
  position := k.position.trans h.position
  slots i := (h.slots i).trans (k.slots i)
  lines := k.lines.trans h.lines
  frames i := (h.frames i).trans (k.frames i)
  photo := by
    have e := k.photo
    have e' := h.photo
    rw [← e'] ; rw [← e]
  tiles := k.tiles.trans h.tiles
  subscriptions := k.subscriptions.trans h.subscriptions
  eventLevel := k.eventLevel.trans h.eventLevel
  lineLevel := k.lineLevel.trans h.lineLevel
  tileLevel := k.tileLevel.trans h.tileLevel

/-- States that agree on the outbound side but for replies, events and the lane. -/
theorem Arbited.of_eq {s t : State} (hl : t.las = s.las) (hp : t.phu = s.phu)
    (hs : t.evr.subscriptions = s.evr.subscriptions) (ho : t.oba = s.oba) : Arbited s t where
  position := by rw [hl]
  slots i := .inl (by rw [hl])
  lines := ⟨[], congrArg Las.source hl⟩
  frames i := .inl (by rw [hp])
  photo := by rw [hp]
  tiles := ⟨[], congrArg Phu.source hp⟩
  subscriptions := hs
  eventLevel := by rw [ho]
  lineLevel := by rw [ho]
  tileLevel := by rw [ho]

theorem slotKept_setSlot (l : Las) (i : Fin 8) (j : Fin 8) :
    SlotKept l.slots[j] (l.setSlot i { l.slots[i] with state := .draining }).slots[j] := by
  by_cases h : j = i
  · subst h; rw [Las.setSlot_get]; exact .inr rfl
  · rw [Las.setSlot_get_ne _ _ h]; exact .refl _

theorem frameKept_setFrame (p : Phu) (i : Fin 2) (j : Fin 2) :
    FrameKept p.slots[j] (p.setFrame i { p.slots[i] with state := .draining }).slots[j] := by
  by_cases h : j = i
  · subst h; rw [Phu.setFrame_get]; exact .inr rfl
  · rw [Phu.setFrame_get_ne _ _ h]; exact .refl _

theorem beginFrame_arbited (s : State) (x : Source) : Arbited s (beginFrame s x) := by
  cases x
  · simp only [beginFrame, beginReply]
    split
    · exact .refl _
    · exact ⟨rfl, fun _ => .refl _, List.suffix_refl _, fun _ => .refl _, rfl, List.suffix_refl _, rfl, rfl, rfl, rfl⟩
  · simp only [beginFrame, beginEvent]
    split
    · exact .refl _
    · exact ⟨rfl, fun _ => .refl _, List.suffix_refl _, fun _ => .refl _, rfl, List.suffix_refl _, rfl, rfl, rfl, rfl⟩
  · simp only [beginFrame, beginLine]
    split
    · exact .refl _
    · exact ⟨rfl, fun j => slotKept_setSlot s.las _ j, List.suffix_refl _, fun _ => .refl _, rfl, List.suffix_refl _,
        rfl, rfl, rfl, rfl⟩
    · rename_i r rest h
      exact ⟨rfl, fun _ => .refl _, by rw [h]; exact List.suffix_cons _ _, fun _ => .refl _, rfl, List.suffix_refl _,
        rfl, rfl, rfl, rfl⟩
  · simp only [beginFrame, beginTile]
    split
    · exact .refl _
    · exact ⟨rfl, fun _ => .refl _, List.suffix_refl _, fun j => frameKept_setFrame s.phu _ j, rfl,
        List.suffix_refl _, rfl, rfl, rfl, rfl⟩
    · rename_i r rest h
      exact ⟨rfl, fun _ => .refl _, List.suffix_refl _, fun _ => .refl _, rfl, by rw [h]; exact List.suffix_cons _ _,
        rfl, rfl, rfl, rfl⟩
    · rename_i r rest h
      exact ⟨rfl, fun _ => .refl _, List.suffix_refl _, fun _ => .refl _, rfl, by rw [h]; exact List.suffix_cons _ _,
        rfl, rfl, rfl, rfl⟩

theorem boundary_arbited (s : State) : Arbited s (boundary s) := by
  unfold boundary; split
  · split
    · exact .refl _
    · exact beginFrame_arbited _ _
  · exact .refl _

theorem appendReply_arbited (f : Frame) (s : State) : Arbited s (appendReply f s) :=
  (Arbited.of_eq (by simp) (by simp) (by simp) (by simp)).trans (boundary_arbited _)

theorem appendEvent_arbited (b : EventBody) (s : State) : Arbited s (appendEvent b s) := by
  unfold appendEvent; split
  · exact (Arbited.of_eq (by simp) (by simp) (by simp) (by simp)).trans (boundary_arbited _)
  · exact Arbited.of_eq (by simp) (by simp) (by simp) (by simp)

theorem reportEdge_arbited (c : Condition) (l : Bool) (s : State) : Arbited s (reportEdge c l s) := by
  unfold reportEdge; split
  · exact appendEvent_arbited _ _
  · exact .refl _

theorem reportChange_arbited (c : Condition) (a b : Bool) (s : State) : Arbited s (reportChange c a b s) := by
  unfold reportChange; split
  · exact .refl _
  · exact reportEdge_arbited _ _ _

/-! ### The choice (R172) -/

/-- With a reply waiting the choice is REPLY (R171, R172). -/
theorem chosen_reply (s : State) (h : s.lnk.replies ≠ []) : s.chosen = some .reply := by
  have h0 : 0 < s.lnk.replies.length := List.length_pos_iff.mpr h
  have e : ¬ (3 < s.oba.eventLevel.val) := by omega
  have l : ¬ (3 < s.oba.lineLevel.val) := by omega
  have t : ¬ (3 < s.oba.tileLevel.val) := by omega
  simp only [State.chosen, allSources, State.items, List.filter_cons, decide_eq_true_eq, h0, if_true, List.filter_nil]
  split <;> split <;> split <;> simp [Oba.level, e, l, t]

/-- A busy lane has no boundary (R172). -/
@[simp] theorem boundary_busy (s : State) (x : Sending) (h : s.oba.lane = some x) : boundary s = s := by
  simp [boundary, h]

/-- Outside running no frame begins (R181, R182). -/
theorem boundary_not_running (s : State) (h : s.phase ≠ .running) : boundary s = s := by
  simp [boundary, h]

/-- After a boundary of a running part with a reply waiting, the lane is busy. -/
theorem boundary_lane_reply (s : State) (hp : s.phase = .running) (h : s.lnk.replies ≠ []) :
    ∃ x, (boundary s).oba.lane = some x := by
  unfold boundary
  split
  · rw [chosen_reply s h]
    simp only [beginFrame, beginReply]
    split
    · rename_i e; exact absurd e h
    · exact ⟨_, rfl⟩
  · rename_i k
    cases e : s.oba.lane with
    | none => exact absurd ⟨hp, e⟩ k
    | some x => exact ⟨x, rfl⟩

/-- The link record but for its replies. -/
theorem boundary_lnk (s : State) : { (boundary s).lnk with replies := s.lnk.replies } = s.lnk := by
  unfold boundary; split
  · split
    · rfl
    · rename_i x _
      cases x
      · simp only [beginFrame, beginReply]; split <;> rfl
      · simp only [beginFrame, beginEvent]; split <;> rfl
      · simp only [beginFrame, beginLine]; split <;> rfl
      · simp only [beginFrame, beginTile]; split <;> rfl
  · rfl

/-- A reply that waits, or is on the lane, is still out after a boundary. -/
theorem boundary_replyOut (s : State) (f : Frame) (h : ReplyOut s f) : ReplyOut (boundary s) f := by
  rcases h with h | ⟨x, hx, hi, hf⟩
  · unfold boundary; split
    · have hne : s.lnk.replies ≠ [] := List.ne_nil_of_mem h
      rw [chosen_reply s hne]
      simp only [beginFrame, beginReply]
      split
      · rename_i e; exact absurd e hne
      · rename_i g rest e
        rw [e] at h
        rcases List.mem_cons.mp h with rfl | h
        · exact .inr ⟨_, rfl, rfl, rfl⟩
        · exact .inl h
    · exact .inl h
  · rw [boundary_busy s x hx]; exact .inr ⟨x, hx, hi, hf⟩

theorem appendReply_replyOut (f : Frame) (s : State) : ReplyOut (appendReply f s) f :=
  boundary_replyOut _ _ (.inl (by simp))


/-! ### The link record but for its replies -/

/-- But for its replies the link record is the same. -/
def LinkKept (s t : State) : Prop := { t.lnk with replies := s.lnk.replies } = s.lnk

theorem LinkKept.refl (s : State) : LinkKept s s := rfl

theorem LinkKept.trans {s t u : State} (h : LinkKept s t) (k : LinkKept t u) : LinkKept s u := by
  have e := congrArg (fun l : Lnk => { l with replies := s.lnk.replies }) k
  exact Eq.trans e h

theorem LinkKept.of_eq {s t : State} (h : t.lnk = s.lnk) : LinkKept s t := by unfold LinkKept; rw [h]

theorem boundary_link (s : State) : LinkKept s (boundary s) := boundary_lnk s

theorem appendReply_link (f : Frame) (s : State) : LinkKept s (appendReply f s) :=
  LinkKept.trans (t := s.setLnk { s.lnk with replies := s.lnk.replies ++ [f] }) rfl (boundary_link _)

theorem appendEvent_link (b : EventBody) (s : State) : LinkKept s (appendEvent b s) := by
  unfold appendEvent; split
  · exact boundary_lnk _
  · exact .of_eq rfl

theorem appendLine_link (x : LineItem) (s : State) : LinkKept s (appendLine x s) := boundary_lnk (s.setLas _)

theorem appendTile_link (x : TileItem) (s : State) : LinkKept s (appendTile x s) := boundary_lnk (s.setPhu _)

theorem reportEdge_link (c : Condition) (l : Bool) (s : State) : LinkKept s (reportEdge c l s) := by
  unfold reportEdge; split
  · exact appendEvent_link _ _
  · exact .refl s

theorem reportChange_link (c : Condition) (a b : Bool) (s : State) : LinkKept s (reportChange c a b s) := by
  unfold reportChange; split
  · exact .refl s
  · exact reportEdge_link _ _ _

/-! ### The lane while a frame is on it (R172) -/

/-- A frame on the lane stays there, and the replies that wait stay as they are. -/
def LaneHeld (s t : State) : Prop := s.oba.lane ≠ none → t.oba.lane = s.oba.lane ∧ t.lnk.replies = s.lnk.replies

theorem LaneHeld.refl (s : State) : LaneHeld s s := fun _ => ⟨rfl, rfl⟩

theorem LaneHeld.trans {s t u : State} (h : LaneHeld s t) (k : LaneHeld t u) : LaneHeld s u := fun hb =>
  have e := h hb
  have e' := k (by rw [e.1]; exact hb)
  ⟨e'.1.trans e.1, e'.2.trans e.2⟩

theorem LaneHeld.of_eq {s t : State} (ho : t.oba.lane = s.oba.lane) (hl : t.lnk.replies = s.lnk.replies) : LaneHeld s t :=
  fun _ => ⟨ho, hl⟩

/-- No frame begins while one is on the lane, or while the part does not run (R172, R181). -/
theorem boundary_quiet (s : State) (h : s.oba.lane ≠ none ∨ s.phase ≠ .running) : boundary s = s := by
  unfold boundary; rw [if_neg]; rintro ⟨hp, hl⟩; exact h.elim (· hl) (· hp)

/-- A reply behind a busy lane (R164, R165). -/
theorem appendReply_quiet (f : Frame) (s : State) (h : s.oba.lane ≠ none ∨ s.phase ≠ .running) :
    appendReply f s = s.setLnk { s.lnk with replies := s.lnk.replies ++ [f] } := boundary_quiet _ h

/-- An event behind a busy lane waits, or is dropped and counted (R175). -/
theorem appendEvent_quiet (b : EventBody) (s : State) (h : s.oba.lane ≠ none ∨ s.phase ≠ .running) :
    appendEvent b s = s.setEvr (s.evr.take s.now b) := by
  unfold appendEvent Evr.take
  split
  · exact boundary_quiet _ h
  · rfl

/-- A LINE item behind a busy lane (R39). -/
theorem appendLine_quiet (x : LineItem) (s : State) (h : s.oba.lane ≠ none ∨ s.phase ≠ .running) :
    appendLine x s = s.setLas { s.las with source := s.las.source ++ [x] } := boundary_quiet _ h

/-- A TILE item behind a busy lane (R152). -/
theorem appendTile_quiet (x : TileItem) (s : State) (h : s.oba.lane ≠ none ∨ s.phase ≠ .running) :
    appendTile x s = s.setPhu { s.phu with source := s.phu.source ++ [x] } := boundary_quiet _ h

/-- An event on an idle lane with every source empty: its frame begins at once (R172, R175). -/
theorem appendEvent_fed (b : EventBody) (s : State) (hp : s.phase = .running) (hl : s.oba.lane = none)
    (hi : ∀ x, s.items x = 0) :
    appendEvent b s = (s.setEvr { s.evr with lost := 0 }).setOba { s.oba with
      lane := s.laneWith .event (report 0xC1 (Event.payload { body := b, tick := s.now } s.evr.lost)) } := by
  have hq : s.evr.queue = [] := List.length_eq_zero_iff.mp (hi .event)
  have hr : s.lnk.replies = [] := List.length_eq_zero_iff.mp (hi .reply)
  have ha : s.las.source = [] := List.length_eq_zero_iff.mp (hi .line)
  have ht : s.phu.source = [] := List.length_eq_zero_iff.mp (hi .tile)
  have hc : (s.setEvr { s.evr with queue := [{ body := b, tick := s.now }] }).chosen = some .event := by
    simp [State.chosen, allSources, State.items, hr, ha, ht]
  simp only [appendEvent, hq, List.nil_append, List.length_nil, show (0 : Nat) < 16 by decide, if_true]
  rw [boundary, if_pos ⟨hp, hl⟩, hc]
  simp [beginFrame, beginEvent, State.send, State.laneWith, State.expiryIn]
  rfl

theorem boundary_held (s : State) : LaneHeld s (boundary s) := fun h => by rw [boundary_quiet s (.inl h)]; exact ⟨rfl, rfl⟩

theorem appendEvent_held (b : EventBody) (s : State) : LaneHeld s (appendEvent b s) := fun h => by
  rw [appendEvent_quiet b s (.inl h)]; exact ⟨rfl, rfl⟩

theorem appendLine_held (x : LineItem) (s : State) : LaneHeld s (appendLine x s) := fun h => by
  rw [appendLine_quiet x s (.inl h)]; exact ⟨rfl, rfl⟩

theorem appendTile_held (x : TileItem) (s : State) : LaneHeld s (appendTile x s) := fun h => by
  rw [appendTile_quiet x s (.inl h)]; exact ⟨rfl, rfl⟩

theorem reportEdge_held (c : Condition) (l : Bool) (s : State) : LaneHeld s (reportEdge c l s) := by
  unfold reportEdge; split
  · exact appendEvent_held _ _
  · exact .refl s

theorem reportChange_held (c : Condition) (a b : Bool) (s : State) : LaneHeld s (reportChange c a b s) := by
  unfold reportChange; split
  · exact .refl s
  · exact reportEdge_held _ _ _

/-- A reply that goes out disturbs no other source: it has the highest level (R171, R172). -/
theorem appendReply_undisturbed (f : Frame) (s : State) : Undisturbed s (appendReply f s) := by
  unfold appendReply boundary
  split
  · rw [chosen_reply _ (by simp)]
    simp only [beginFrame, beginReply]
    split
    · exact ⟨rfl, rfl, rfl, rfl⟩
    · exact ⟨rfl, rfl, rfl, rfl⟩
  · exact ⟨rfl, rfl, rfl, rfl⟩

theorem Undisturbed.arbited {s t : State} (h : Undisturbed s t) : Arbited s t where
  position := by rw [h.las]
  slots i := .inl (by rw [h.las])
  lines := ⟨[], congrArg Las.source h.las⟩
  frames i := .inl (by rw [h.phu])
  photo := by rw [h.phu]
  tiles := ⟨[], congrArg Phu.source h.phu⟩
  subscriptions := by rw [h.evr]
  eventLevel := by rw [h.levels]
  lineLevel := by rw [h.levels]
  tileLevel := by rw [h.levels]

/-! ### The Event Reporter (R174, R175) -/

theorem Reported.of_evr {s t : State} (h : t.evr = s.evr) : Reported [] s t := ⟨fun _ => h, fun _ _ _ => h⟩

/-- What comes after the events leaves the Event Reporter as it stands. -/
theorem Reported.then {b : List EventBody} {s t u : State} (h : Reported b s t) (k : u.evr = t.evr) : Reported b s u :=
  ⟨fun hb => k.trans (h.waits hb), fun h1 h2 h3 => k.trans (h.begins h1 h2 h3)⟩

/-- What comes before the events leaves the outbound side as it stands. -/
theorem Reported.after {b : List EventBody} {s t u : State} (h : Reported b t u) (he : t.evr = s.evr)
    (hl : t.oba.lane = s.oba.lane) (hp : t.phase = s.phase) (hn : t.now = s.now) (hi : ∀ x, t.items x = s.items x) :
    Reported b s u := by
  refine ⟨fun hb => ?_, fun h1 h2 h3 => ?_⟩
  · rw [h.waits (by rw [hl, hp]; exact hb), he, hn]
  · rw [h.begins (hl.trans h1) (hp.trans h2) (fun x => (hi x).trans (h3 x)), he, hn]

/-- One event reaches the Event Reporter (R175). -/
theorem appendEvent_reported (b : EventBody) (s : State) : Reported [b] s (appendEvent b s) := by
  refine ⟨fun hb => ?_, fun h1 h2 h3 => ?_⟩
  · rw [appendEvent_quiet b s hb]; rfl
  · rw [appendEvent_fed b s h2 h1 h3]; rfl

/-- A change reaches the Event Reporter if its setting selects it (R174). -/
theorem reportEdge_reported (c : Condition) (l : Bool) (s : State) : Reported (s.edge c l) s (reportEdge c l s) := by
  unfold reportEdge State.edge
  split
  · exact appendEvent_reported _ _
  · exact .of_evr rfl

/-- Events one after another: after the first the lane is busy, or the part does not run, or nothing has been appended. -/
theorem Reported.append {a b : List EventBody} {s t u : State} (h : Reported a s t) (k : Reported b t u)
    (hl : LaneHeld s t) (hp : t.phase = s.phase) (hn : t.now = s.now)
    (hi : s.oba.lane = none → s.phase = .running → (∀ x, s.items x = 0) →
      (a = [] ∧ t.oba.lane = none ∧ ∀ x, t.items x = 0) ∨ (a ≠ [] ∧ t.oba.lane ≠ none)) :
    Reported (a ++ b) s u := by
  refine ⟨fun hb => ?_, fun h1 h2 h3 => ?_⟩
  · have hb' : t.oba.lane ≠ none ∨ t.phase ≠ .running := by
      rcases hb with hb | hb
      · exact .inl (by rw [(hl hb).1]; exact hb)
      · exact .inr (by rw [hp]; exact hb)
    rw [k.waits hb', h.waits hb, List.foldl_append, hn]
  · rcases hi h1 h2 h3 with ⟨ha, hl', hi'⟩ | ⟨ha, hl'⟩
    · subst ha
      have e := h.begins h1 h2 h3
      rw [k.begins hl' (hp.trans h2) hi', List.nil_append, e, hn]
      rfl
    · obtain ⟨x, rest, rfl⟩ := List.exists_cons_of_ne_nil ha
      rw [k.waits (.inl hl'), h.begins h1 h2 h3, hn]; simp [Evr.takeFed]

/-- The events of a change rest on the subscription table alone. -/
theorem State.edge_congr {s t : State} (h : t.evr.subscriptions = s.evr.subscriptions) (c : Condition) (l : Bool) :
    t.edge c l = s.edge c l := by
  have e : t.evr.setting c = s.evr.setting c := congrArg (fun v : Vector Edge 8 => v[c.index]) h
  unfold State.edge; rw [e]

/-- A change that meets an idle lane with every source empty is not selected, or its frame begins (R172, R174). -/
theorem reportEdge_fed (c : Condition) (l : Bool) (s : State) (hp : s.phase = .running) (hl : s.oba.lane = none)
    (hi : ∀ x, s.items x = 0) :
    (s.edge c l = [] ∧ reportEdge c l s = s) ∨ (s.edge c l ≠ [] ∧ (reportEdge c l s).oba.lane ≠ none) := by
  unfold State.edge reportEdge
  split
  · rw [appendEvent_fed _ s hp hl hi]; exact .inr ⟨nofun, nofun⟩
  · exact .inl ⟨rfl, rfl⟩

/-- A change and what follows it (R174). -/
theorem reportEdge_then {c : Condition} {l : Bool} {b : List EventBody} {s u : State}
    (k : Reported b (reportEdge c l s) u) : Reported (s.edge c l ++ b) s u := by
  have e := inner_eq (reportEdge_inner c l s)
  refine (reportEdge_reported c l s).append k (reportEdge_held c l s) e.2.1 (congrArg Tbu.tick e.2.2.2.1) fun h1 h2 h3 => ?_
  rcases reportEdge_fed c l s h2 h1 h3 with ⟨ha, hs⟩ | h
  · rw [hs]; exact .inl ⟨ha, h1, h3⟩
  · exact .inr h

end Sys2Proof.Machine
end

