-- ==== Sys2Proof/Laws/Kept.lean ====
section
/-! SUPPORT. `Kept`: what no event inside the part changes by itself (queue of commands, phase, timebase, calibration).
`Still`: besides, the emission record and the mirror's state, on which the interlock rests. One lemma for each operation of
the sweep, the point path and the head. -/

namespace Sys2Proof.Machine

/-- The queue, the phase, the reset cause, the timebase, the calibration and the draw are the same. -/
structure Kept (s t : State) : Prop where
  pending    : t.pending = s.pending
  phase      : t.phase = s.phase
  resetCause : t.resetCause = s.resetCause
  tbu        : t.tbu = s.tbu
  cal        : t.cal = s.cal
  freeDraw   : t.freeDraw = s.freeDraw

/-- Besides `Kept`, the emission record, the mirror record but for its owner, and the link record but for its replies are the
same. -/
structure Still (s t : State) : Prop extends Kept s t where
  lec : t.lec = s.lec
  mdu : { t.mdu with owner := s.mdu.owner } = s.mdu
  lnk : LinkKept s t

/-- The mirror's state is the same. -/
theorem Still.mirror {s t : State} (h : Still s t) : t.mdu.state = s.mdu.state := by
  have e := congrArg Mdu.state h.mdu
  exact e

theorem Kept.refl (s : State) : Kept s s := ⟨rfl, rfl, rfl, rfl, rfl, rfl⟩

theorem Kept.trans {s t u : State} (h : Kept s t) (k : Kept t u) : Kept s u :=
  ⟨k.pending.trans h.pending, k.phase.trans h.phase, k.resetCause.trans h.resetCause, k.tbu.trans h.tbu,
    k.cal.trans h.cal, k.freeDraw.trans h.freeDraw⟩

theorem Still.refl (s : State) : Still s s := ⟨.refl s, rfl, rfl, .refl s⟩

theorem Still.trans {s t u : State} (h : Still s t) (k : Still t u) : Still s u :=
  ⟨h.toKept.trans k.toKept, k.lec.trans h.lec,
    (congrArg (fun m : Mdu => { m with owner := s.mdu.owner }) k.mdu).trans h.mdu, h.lnk.trans k.lnk⟩

theorem Still.of_inner {s t : State} (h : t.inner = s.inner) (k : LinkKept s t) : Still s t := by
  obtain ⟨h1, h2, h3, h4, -, -, -, -, h9, -, h11, h12, h13⟩ := inner_eq h
  exact ⟨⟨h1, h2, h3, h4, h12, h13⟩, h11, by rw [h9], k⟩

theorem Kept.of_inner {s t : State} (h : t.inner = s.inner) : Kept s t := by
  obtain ⟨h1, h2, h3, h4, -, -, -, -, -, -, -, h12, h13⟩ := inner_eq h
  exact ⟨h1, h2, h3, h4, h12, h13⟩

theorem Still.setScu (s : State) (x : Scu) : Still s (s.setScu x) := ⟨⟨rfl, rfl, rfl, rfl, rfl, rfl⟩, rfl, rfl, rfl⟩
theorem Still.setLas (s : State) (x : Las) : Still s (s.setLas x) := ⟨⟨rfl, rfl, rfl, rfl, rfl, rfl⟩, rfl, rfl, rfl⟩
theorem Still.setRtu (s : State) (x : Rtu) : Still s (s.setRtu x) := ⟨⟨rfl, rfl, rfl, rfl, rfl, rfl⟩, rfl, rfl, rfl⟩
theorem Still.setPfm (s : State) (x : Option PointWork) : Still s (s.setPfm x) :=
  ⟨⟨rfl, rfl, rfl, rfl, rfl, rfl⟩, rfl, rfl, rfl⟩
theorem Still.setHdu (s : State) (x : Hdu) : Still s (s.setHdu x) := ⟨⟨rfl, rfl, rfl, rfl, rfl, rfl⟩, rfl, rfl, rfl⟩
theorem Still.setPhu (s : State) (x : Phu) : Still s (s.setPhu x) := ⟨⟨rfl, rfl, rfl, rfl, rfl, rfl⟩, rfl, rfl, rfl⟩
theorem Still.setEvr (s : State) (x : Evr) : Still s (s.setEvr x) := ⟨⟨rfl, rfl, rfl, rfl, rfl, rfl⟩, rfl, rfl, rfl⟩
theorem Still.setOba (s : State) (x : Oba) : Still s (s.setOba x) := ⟨⟨rfl, rfl, rfl, rfl, rfl, rfl⟩, rfl, rfl, rfl⟩
theorem Still.setPins (s : State) (x : Pins) : Still s (s.setPins x) := ⟨⟨rfl, rfl, rfl, rfl, rfl, rfl⟩, rfl, rfl, rfl⟩
theorem Still.setSlot (s : State) (i : Fin 8) (x : LineSlot) : Still s (s.setSlot i x) := .setLas s _
theorem Still.setFrame (s : State) (i : Fin 2) (x : FrameSlot) : Still s (s.setFrame i x) := .setPhu s _
theorem Still.setMduOwner (s : State) (o : Owner) : Still s (s.setMdu { s.mdu with owner := o }) :=
  ⟨⟨rfl, rfl, rfl, rfl, rfl, rfl⟩, rfl, rfl, rfl⟩

/-! ### Outbound -/

theorem boundary_still (s : State) : Still s (boundary s) := .of_inner (boundary_inner s) (boundary_link s)
theorem appendReply_still (f : Frame) (s : State) : Still s (appendReply f s) := .of_inner (appendReply_inner f s) (appendReply_link f s)
theorem appendEvent_still (b : EventBody) (s : State) : Still s (appendEvent b s) := .of_inner (appendEvent_inner b s) (appendEvent_link b s)
theorem appendLine_still (x : LineItem) (s : State) : Still s (appendLine x s) := .of_inner (appendLine_inner x s) (appendLine_link x s)
theorem appendTile_still (x : TileItem) (s : State) : Still s (appendTile x s) := .of_inner (appendTile_inner x s) (appendTile_link x s)
theorem reportEdge_still (c : Condition) (l : Bool) (s : State) : Still s (reportEdge c l s) :=
  .of_inner (reportEdge_inner c l s) (reportEdge_link c l s)
theorem reportChange_still (c : Condition) (a b : Bool) (s : State) : Still s (reportChange c a b s) :=
  .of_inner (reportChange_inner c a b s) (reportChange_link c a b s)

/-! ### Head -/

theorem syncFollowing_still (s : State) : Still s (syncFollowing s) := by
  unfold syncFollowing; split
  · exact .setHdu s _
  · exact .refl s

theorem readHead_still (c : HeadCount) (s : State) : Still s (readHead c s) :=
  (Still.setPins s _).trans (syncFollowing_still _)

theorem headFaults_still (r : HeadFault) (s : State) : Still s (headFaults r s).1 :=
  ((Still.setHdu s _).trans (reportChange_still _ _ _ _)).trans (appendEvent_still _ _)

theorem slewTo_still (x : HeadCount) (s : State) : Still s (slewTo x s).1 := by
  unfold slewTo; split
  · exact .refl s
  · split
    · exact ((Still.setHdu s _).trans (reportChange_still _ _ _ _)).trans (headFaults_still _ _)
    · exact (Still.setHdu s _).trans (reportChange_still _ _ _ _)

theorem holdHead_still (s : State) : Still s (holdHead s) := by
  unfold holdHead
  split
  all_goals first
    | exact .setHdu s _

theorem rateRequest_still (r : Nat) (s : State) : Still s (rateRequest r s) := by
  unfold rateRequest
  split
  · exact (Still.setHdu s _).trans (reportEdge_still _ _ _)
  · exact .refl s

theorem headSettles_still (s : State) : Still s (headSettles s) := (Still.setHdu s _).trans (reportEdge_still _ _ _)

theorem headMoves_still (c : HeadCount) (s : State) : Still s (headMoves c s).1 := by
  refine (readHead_still c s).trans ?_
  unfold headMoves
  simp only
  split
  · exact headFaults_still _ _
  · exact .setHdu _ _

theorem slewTimeout_still (s : State) : Still s (slewTimeout s).1 := by
  unfold slewTimeout; split
  · exact headFaults_still _ s
  · exact .refl s

theorem headDriverFault_still (a : Bool) (s : State) : Still s (headDriverFault a s).1 := by
  refine (Still.setPins s { s.pins with headFault := a }).trans ?_
  unfold headDriverFault
  simp only
  split
  · exact headFaults_still _ _
  · exact .refl _

/-! ### Ring and seal -/

theorem retireAll_still (es : List FireEntry) (s : State) : Still s (retireAll es s) := by
  induction es generalizing s with
  | nil => exact .refl s
  | cons e es ih => exact (Still.setSlot s _ _).trans (ih _)

theorem handOver_still (s : State) : Still s (handOver s) := by
  unfold handOver; split
  · exact .refl s
  · exact (Still.setSlot s _ _).trans (.setPfm _ _)

theorem openLine_still (s : State) : Still s (openLine s) := (Still.setLas s _).trans (reportChange_still _ _ _ _)

theorem chunkSent_still (i : Fin 8) (s : State) : Still s (chunkSent i s) := by
  unfold chunkSent; simp only; split
  · exact (Still.setLas s _).trans (reportChange_still _ _ _ _)
  · exact .setSlot s _ _

theorem retireSlot_still (i : Fin 8) (s : State) : Still s (retireSlot i s) :=
  (Still.setRtu s _).trans (retireAll_still _ _)

theorem writeFormed_still (i : Fin 8) (s : State) : Still s (writeFormed i s) := by
  unfold writeFormed; split
  · split
    · exact handOver_still s
    · exact .refl s
  · exact .refl s

theorem sealLine_still (i : Fin 8) (b : Bool) (s : State) : Still s (sealLine i b s) :=
  ((((retireSlot_still i s).trans (writeFormed_still i _)).trans (.setSlot _ _ _)).trans
    (appendLine_still _ _)).trans (.setScu _ _)

theorem releaseHead_still (s : State) : Still s (releaseHead s) := by
  unfold releaseHead; split
  · exact (holdHead_still s).trans (.setHdu _ _)
  · exact .refl s

theorem queueSweepEnd_still (r : SweepEnd) (s : State) : Still s (queueSweepEnd r s) := by
  unfold queueSweepEnd; split
  · exact appendLine_still _ s
  · exact .refl s

theorem sweepClose_still (s : State) : Still s (sweepClose s) :=
  (((releaseHead_still s).trans (.setMduOwner _ _)).trans (.setScu _ _)).trans (queueSweepEnd_still _ _)

theorem testClosing_still (s : State) : Still s (testClosing s) := by
  unfold testClosing; split
  · exact sweepClose_still s
  · exact .refl s

/-! ### Point path -/

theorem firingRule_still (i : Fin 8) (s : State) : Still s (firingRule i s) := by
  unfold firingRule
  split
  · split
    · exact (Still.setRtu s _).trans (.setSlot _ _ _)
    · exact .setSlot s _ _
  · exact .setSlot s _ _

theorem takeOpportunities_still (i : Fin 8) (n : Nat) (s : State) : Still s (takeOpportunities i n s) := by
  induction n generalizing s with
  | zero => exact .refl s
  | succ n ih =>
    unfold takeOpportunities
    split
    · exact (firingRule_still i s).trans (ih _)
    · exact .refl s

theorem pulseOpportunity_still (s : State) : Still s (pulseOpportunity s) := by
  unfold pulseOpportunity
  split
  · exact takeOpportunities_still _ _ s
  · exact .refl s

theorem sealDrained_still (s : State) : Still s (sealDrained s) := by
  unfold sealDrained; split
  · split
    · exact (sealLine_still _ _ s).trans (testClosing_still _)
    · exact .refl s
  · exact .refl s

theorem matchAt_still (d : Nat) (e : FireEntry) (r : ReturnRecord) (s : State) : Still s (matchAt d e r s) :=
  ((Still.setRtu s _).trans (retireAll_still _ _)).trans (.setPfm _ _)

theorem strayRecord_still (s : State) : Still s (strayRecord s) := .setRtu s _

theorem takeMatching_still (r : ReturnRecord) (s : State) : Still s (takeMatching r s) := by
  unfold takeMatching
  repeat' split
  all_goals first
    | exact matchAt_still _ _ _ _
    | exact strayRecord_still _

theorem retireLog_still (s : State) : Still s (retireLog s) := (Still.setRtu s _).trans (retireAll_still _ _)

theorem takeHunt_still (r : ReturnRecord) (s : State) : Still s (takeHunt r s) := by
  unfold takeHunt
  simp only
  repeat' split
  all_goals first
    | exact matchAt_still _ _ _ _
    | exact retireLog_still _
    | exact .refl _

theorem handleRecord_still (r : ReturnRecord) (s : State) : Still s (handleRecord r s) := by
  unfold handleRecord
  refine Still.trans ?_ (sealDrained_still _)
  split
  · exact takeMatching_still _ _
  · exact takeHunt_still _ _

theorem matcherPoll_still (s : State) : Still s (matcherPoll s) := by
  unfold matcherPoll; split
  · exact (Still.setRtu s _).trans (handleRecord_still _ _)
  · exact .refl s

theorem returnRecordComplete_still (r : WireRecord) (s : State) : Still s (returnRecordComplete r s) := by
  unfold returnRecordComplete offerRecord
  repeat' split
  all_goals first
    | exact (Still.setRtu s _).trans (matcherPoll_still _)
    | exact .setRtu s _

theorem returnTimeout_still (s : State) : Still s (returnTimeout s) := by
  unfold returnTimeout
  split
  · split
    · exact (((Still.setRtu s _).trans (.setSlot _ _ _)).trans (sealDrained_still _)).trans (matcherPoll_still _)
    · exact .refl s
  · exact .refl s

theorem pointHandover_still (s : State) : Still s (pointHandover s) := by
  unfold pointHandover
  split
  · split
    · exact (handOver_still s).trans (matcherPoll_still _)
    · exact .refl s
  · exact .refl s

/-! ### Sweep -/

theorem stopFilling_still (s : State) : Still s (stopFilling s) := by
  unfold stopFilling
  simp only
  repeat' split
  all_goals first
    | exact (Still.setSlot s _ _).trans (sealLine_still _ _ _)
    | exact .setSlot s _ _
    | exact .refl s

theorem takeInterruption_still (c : SweepCause) (s : State) : Still s (takeInterruption c s) :=
  ((((Still.setScu s _).trans (stopFilling_still _)).trans (.setScu _ _)).trans (testClosing_still _)).trans
    (matcherPoll_still _)

theorem interrupt_still (c : SweepCause) (s : State) : Still s (interrupt c s) := by
  unfold interrupt
  repeat' split
  all_goals first
    | exact takeInterruption_still _ s
    | exact .refl s

theorem runupTest_still (s : State) : Still s (runupTest s) := by
  unfold runupTest; split
  · exact ((Still.setScu s _).trans (rateRequest_still _ _)).trans (.setScu _ _)
  · exact .refl s

theorem prepareTimeout_still (s : State) : Still s (prepareTimeout s) := by
  unfold prepareTimeout; split
  · exact interrupt_still _ s
  · exact .refl s

theorem nextLine_still (s : State) : Still s (nextLine s) := by
  unfold nextLine; simp only; split
  · exact (Still.setScu s _).trans (testClosing_still _)
  · exact .setScu s _

theorem decideLine_still (s : State) : Still s (decideLine s) := by
  unfold decideLine
  split
  · refine Still.trans ?_ (nextLine_still _)
    split
    · exact .setScu s _
    · split
      · exact openLine_still s
      · exact .setScu s _
  · exact .refl s

theorem scuPulse_still (b : SweepState) (f : Bool) (s : State) : Still s (scuPulse b f s) := by
  unfold scuPulse
  repeat' split
  all_goals first
    | exact runupTest_still s
    | exact (Still.setScu s _).trans (decideLine_still _)
    | exact decideLine_still s
    | exact .refl s

theorem sealAtPulse_still (f : Bool) (s : State) : Still s (sealAtPulse f s) := by
  unfold sealAtPulse; split
  · exact ((sealLine_still _ _ s).trans (testClosing_still _)).trans (matcherPoll_still _)
  · exact .refl s

/-! ### Photo run -/

theorem startExposure_still (i : Fin 2) (s : State) : Still s (startExposure i s) := by
  unfold startExposure
  split
  · exact .refl s
  · split
    · exact .refl s
    · exact (Still.setPhu s _).trans (reportChange_still _ _ _ _)

theorem beginExposure_still (s : State) : Still s (beginExposure s) := by
  unfold beginExposure; split
  · exact startExposure_still _ s
  · exact .setPhu s _

theorem positionedTest_still (s : State) : Still s (positionedTest s) := by
  unfold positionedTest; split
  · exact (Still.setPhu s _).trans (beginExposure_still _)
  · exact .refl s

theorem releasePhoto_still (s : State) : Still s (releasePhoto s) := by
  unfold releasePhoto
  simp only
  split
  · exact (Still.setHdu s _).trans (.setMduOwner _ _)
  · exact .setMduOwner s _

theorem endRun_still (r : RunResult) (c : RunCause) (d : Bool) (s : State) : Still s (endRun r c d s) :=
  ((releasePhoto_still s).trans (.setPhu _ _)).trans (appendTile_still _ _)

theorem discardExposure_still (s : State) : Still s (discardExposure s) := by
  unfold discardExposure; split
  · exact (Still.setPhu s _).trans (reportChange_still _ _ _ _)
  · exact .refl s

theorem earlyEnd_still (r : RunResult) (c : RunCause) (s : State) : Still s (earlyEnd r c s) :=
  (discardExposure_still s).trans (endRun_still _ _ _ _)

theorem runInterrupted_still (c : RunCause) (s : State) : Still s (runInterrupted c s) := by
  unfold runInterrupted
  split
  · exact .refl s
  all_goals exact earlyEnd_still _ _ s

theorem midExposureSample_still (s : State) : Still s (midExposureSample s) := by
  unfold midExposureSample
  split
  · exact .setFrame _ _ _
  · exact .refl _

theorem exposureEnd_still (s : State) : Still s (exposureEnd s) := by
  unfold exposureEnd
  split
  · split
    · exact .setPhu s _
    · exact .refl s
  · exact .refl s

theorem frameReady_still (i : Fin 2) (im : PixelList) (s : State) : Still s (frameReady i im s) :=
  (Still.setPhu s _).trans (appendTile_still _ _)

theorem framePartSent_still (i : Fin 2) (s : State) : Still s (framePartSent i s) := by
  unfold framePartSent
  simp only
  split
  · split
    · exact ((Still.setPhu s _).trans (reportChange_still _ _ _ _)).trans (startExposure_still _ _)
    · exact (Still.setPhu s _).trans (reportChange_still _ _ _ _)
  · exact .setFrame s _ _

/-! ### What blocks are told -/

theorem tell_still (t : Told) (s : State) : Still s (tell t s) := by
  unfold tell
  split
  all_goals first
    | exact interrupt_still _ s
    | exact runInterrupted_still _ s
    | exact .refl s

theorem tellAll_still (r : State × List Told) : Still r.1 (tellAll r) := by
  obtain ⟨s, l⟩ := r
  unfold tellAll
  induction l generalizing s with
  | nil => exact .refl s
  | cons t l ih => exact (tell_still t s).trans (ih _)

theorem headArrives_still (c : HeadCount) (s : State) : Still s (headArrives c s) :=
  (headMoves_still c s).trans (tellAll_still _)

theorem headSettleExpiry_still (s : State) : Still s (headSettleExpiry s) := by
  unfold headSettleExpiry
  repeat' split
  all_goals first
    | exact (headSettles_still s).trans (runupTest_still _)
    | exact (headSettles_still s).trans (positionedTest_still _)
    | exact headSettles_still s
    | exact .refl s

end Sys2Proof.Machine
end

