-- ==== Sys2Proof/Laws/Laser.lean ====
section
/-! SUPPORT. The emission record under every operation that moves the mirror or the interlock (R106 to R116): each keeps
`LaserSafe`. -/

namespace Sys2Proof.Machine

/-- `LaserSafe` rests on the emission record and the mirror's state alone. -/
theorem LaserSafe.of_eq {s t : State} (h : LaserSafe s) (hl : t.lec = s.lec) (hm : t.mdu.state = s.mdu.state) :
    LaserSafe t := by
  obtain ⟨h1, h2, h3, h4, h5⟩ := h
  refine ⟨?_, ?_, ?_, ?_, ?_⟩
  · simpa only [State.interlockHolds, hl, hm] using h1
  · rw [hl]; exact h2
  · rw [hl]; exact h3
  · rw [hl]; exact h4
  · rw [hl]; exact h5

theorem Still.laserSafe {s t : State} (k : Still s t) (h : LaserSafe s) : LaserSafe t := h.of_eq k.lec k.mirror

theorem Kept.of_fields {s t : State} (h : t.inner = s.inner) : Kept s t := .of_inner h

/-! ### The interlock -/

theorem setLec_kept (s : State) (x : Lec) : Kept s (s.setLec x) := ⟨rfl, rfl, rfl, rfl, rfl, rfl⟩

theorem setMdu_kept (s : State) (x : Mdu) : Kept s (s.setMdu x) := ⟨rfl, rfl, rfl, rfl, rfl, rfl⟩

theorem evalInterlock_kept (s : State) : Kept s (evalInterlock s).1 := by
  unfold evalInterlock
  split
  · exact .refl s
  · split
    · exact (setLec_kept s _).trans (reportEdge_still _ _ _).toKept
    · unfold interlockUnsatisfied
      split
      · exact ((setLec_kept s _).trans (reportEdge_still _ _ _).toKept).trans (reportEdge_still _ _ _).toKept
      all_goals exact (setLec_kept s _).trans (reportEdge_still _ _ _).toKept

theorem evalInterlock_mdu (s : State) : (evalInterlock s).1.mdu = s.mdu := by
  unfold evalInterlock interlockSatisfied interlockUnsatisfied
  repeat' split
  all_goals first
    | rfl
    | simp only [(inner_eq (reportEdge_inner _ _ _)).2.2.2.2.2.2.2.2.1, State.setLec_fields]

/-- An evaluation of the interlock makes the record agree with it (R107 to R109). -/
theorem evalInterlock_laserSafe (s : State) (h2 : s.lec.state = .lockedOut ↔ s.lec.satisfied = false)
    (h3 : s.lec.state = .leased → ∃ n t, s.lec.token = some n ∧ n ≠ 0 ∧ s.lec.expiry = some t ∧
      1 ≤ s.lec.duration ∧ s.lec.duration ≤ 60)
    (h4 : s.lec.state ≠ .leased → s.lec.token = none ∧ s.lec.expiry = none) (h5 : s.lec.nextToken ≠ 0) :
    LaserSafe (evalInterlock s).1 := by
  unfold evalInterlock
  by_cases e : s.interlockHolds = s.lec.satisfied
  · rw [if_pos e]; exact ⟨e.symm, h2, h3, h4, h5⟩
  · rw [if_neg e]
    by_cases k : s.interlockHolds = true
    · rw [if_pos k]
      have ks : s.lec.satisfied = false := by
        cases hs : s.lec.satisfied
        · rfl
        · exact absurd (k.trans hs.symm) e
      have hl := h2.mpr ks
      have h4' := h4 (by rw [hl]; exact nofun)
      refine Still.laserSafe (reportEdge_still _ _ _) ⟨?_, ?_, ?_, ?_, h5⟩
      · exact k.symm
      · exact ⟨nofun, nofun⟩
      · exact nofun
      · exact fun _ => h4'
    · have kf : s.interlockHolds = false := by simpa using k
      have ks : s.lec.satisfied = true := by
        cases hs : s.lec.satisfied
        · exact absurd (kf.trans hs.symm) e
        · rfl
      rw [if_neg k]
      unfold interlockUnsatisfied
      split
      · refine Still.laserSafe (reportEdge_still _ _ _) (Still.laserSafe (reportEdge_still _ _ _) ⟨?_, ?_, ?_, ?_, h5⟩)
        · exact kf.symm
        · exact ⟨fun _ => rfl, fun _ => rfl⟩
        · exact nofun
        · exact fun _ => ⟨rfl, rfl⟩
      · rename_i hne
        have h4' := h4 hne
        refine Still.laserSafe (reportEdge_still _ _ _) ⟨?_, ?_, ?_, ?_, h5⟩
        · exact kf.symm
        · exact ⟨fun _ => rfl, fun _ => rfl⟩
        · exact nofun
        · exact fun _ => h4'

/-! ### The mirror -/

theorem moveMirror_kept (m : Mdu) (s : State) : Kept s (moveMirror m s).1 := by
  have k := ((setMdu_kept s m).trans (reportChange_still .mirrorFine (s.mdu.state == .fine) (m.state == .fine) _).toKept).trans
    (reportChange_still .mirrorCoarse s.mdu.state.coarseLock m.state.coarseLock _).toKept
  unfold moveMirror
  simp only
  split
  · exact k
  · exact k.trans (evalInterlock_kept _)

theorem moveMirror_mdu (m : Mdu) (s : State) : (moveMirror m s).1.mdu = m := by
  have e (c d : Condition) (a b x y : Bool) : (reportChange c a b (reportChange d x y (s.setMdu m))).mdu = m :=
    (inner_eq (reportChange_inner _ _ _ _)).2.2.2.2.2.2.2.2.1.trans
      (inner_eq (reportChange_inner _ _ _ _)).2.2.2.2.2.2.2.2.1
  unfold moveMirror
  simp only
  split
  · exact e _ _ _ _ _ _
  · exact (evalInterlock_mdu _).trans (e _ _ _ _ _ _)

/-- A move of the mirror keeps the record safe: a change of COARSE-or-FINE has the interlock evaluated (R86, R107). -/
theorem moveMirror_laserSafe (m : Mdu) (s : State) (h : LaserSafe s) : LaserSafe (moveMirror m s).1 := by
  have e (c d : Condition) (a b x y : Bool) : (reportChange c a b (reportChange d x y (s.setMdu m))).lec = s.lec :=
    (inner_eq (reportChange_inner _ _ _ _)).2.2.2.2.2.2.2.2.2.2.1.trans
      (inner_eq (reportChange_inner _ _ _ _)).2.2.2.2.2.2.2.2.2.2.1
  have em (c d : Condition) (a b x y : Bool) : (reportChange c a b (reportChange d x y (s.setMdu m))).mdu = m :=
    (inner_eq (reportChange_inner _ _ _ _)).2.2.2.2.2.2.2.2.1.trans
      (inner_eq (reportChange_inner _ _ _ _)).2.2.2.2.2.2.2.2.1
  obtain ⟨h1, h2, h3, h4, h5⟩ := h
  unfold moveMirror
  simp only
  split
  · rename_i hc
    refine ⟨?_, ?_, ?_, ?_, ?_⟩
    · simp only [State.interlockHolds, e, em] at h1 ⊢; rw [← hc]; exact h1
    · simpa only [e] using h2
    · simpa only [e] using h3
    · simpa only [e] using h4
    · simpa only [e] using h5
  · exact evalInterlock_laserSafe _ (by simpa only [e] using h2) (by simpa only [e] using h3)
      (by simpa only [e] using h4) (by simpa only [e] using h5)

theorem mirrorStalls_kept (r : StallReason) (s : State) : Kept s (mirrorStalls r s).1 :=
  (moveMirror_kept _ s).trans (appendEvent_still _ _).toKept

theorem mirrorStalls_laserSafe (r : StallReason) (s : State) (h : LaserSafe s) : LaserSafe (mirrorStalls r s).1 :=
  (appendEvent_still _ _).laserSafe (moveMirror_laserSafe _ s h)

theorem stallIfFaulted_kept (o : MirrorState) (r : State × List Told) : Kept r.1 (stallIfFaulted o r).1 := by
  unfold stallIfFaulted; split
  · exact mirrorStalls_kept _ _
  · exact .refl _

theorem stallIfFaulted_laserSafe (o : MirrorState) (r : State × List Told) (h : LaserSafe r.1) :
    LaserSafe (stallIfFaulted o r).1 := by
  unfold stallIfFaulted; split
  · exact mirrorStalls_laserSafe _ _ h
  · exact h

theorem spinMirror_kept (v : Fin 4) (s : State) : Kept s (spinMirror v s).1 := by
  unfold spinMirror; split
  · exact .refl s
  · exact (moveMirror_kept _ s).trans (stallIfFaulted_kept _ _)

theorem spinMirror_laserSafe (v : Fin 4) (s : State) (h : LaserSafe s) : LaserSafe (spinMirror v s).1 := by
  unfold spinMirror; split
  · exact h
  · exact stallIfFaulted_laserSafe _ _ (moveMirror_laserSafe _ s h)

theorem parkTo_kept (x : MirrorCount) (s : State) : Kept s (parkTo x s).1 := by
  unfold parkTo; split
  · exact .refl s
  · exact (moveMirror_kept _ s).trans (stallIfFaulted_kept _ _)

theorem parkTo_laserSafe (x : MirrorCount) (s : State) (h : LaserSafe s) : LaserSafe (parkTo x s).1 := by
  unfold parkTo; split
  · exact h
  · exact stallIfFaulted_laserSafe _ _ (moveMirror_laserSafe _ s h)

theorem lockDetect_kept (s : State) : Kept s (lockDetect s).1 := by
  unfold lockDetect; split
  · exact moveMirror_kept _ s
  · exact .refl s

theorem lockDetect_laserSafe (s : State) (h : LaserSafe s) : LaserSafe (lockDetect s).1 := by
  unfold lockDetect; split
  · exact moveMirror_laserSafe _ s h
  · exact h

/-- The four timeouts of the mirror (R76, R77, R79, R80). -/
theorem mirrorTimeouts_kept (s : State) :
    Kept s (spinupTimeout s).1 ∧ Kept s (indexLoss s).1 ∧ Kept s (parkTimeout s).1 ∧ Kept s (parkLost s).1 := by
  unfold spinupTimeout indexLoss parkTimeout parkLost
  refine ⟨?_, ?_, ?_, ?_⟩ <;> split
  all_goals first
    | exact mirrorStalls_kept _ s
    | exact .refl s

theorem mirrorTimeouts_laserSafe (s : State) (h : LaserSafe s) :
    LaserSafe (spinupTimeout s).1 ∧ LaserSafe (indexLoss s).1 ∧ LaserSafe (parkTimeout s).1 ∧ LaserSafe (parkLost s).1 := by
  unfold spinupTimeout indexLoss parkTimeout parkLost
  refine ⟨?_, ?_, ?_, ?_⟩ <;> split
  all_goals first
    | exact mirrorStalls_laserSafe _ s h
    | exact h

theorem mirrorDriverFault_kept (a : Bool) (s : State) : Kept s (mirrorDriverFault a s).1 := by
  refine (Still.setPins s { s.pins with mirrorFault := a }).toKept.trans ?_
  unfold mirrorDriverFault; simp only; split
  · exact mirrorStalls_kept _ _
  · exact .refl _

theorem mirrorDriverFault_laserSafe (a : Bool) (s : State) (h : LaserSafe s) : LaserSafe (mirrorDriverFault a s).1 := by
  have h' := (Still.setPins s { s.pins with mirrorFault := a }).laserSafe h
  unfold mirrorDriverFault; simp only; split
  · exact mirrorStalls_laserSafe _ _ h'
  · exact h'

theorem mirrorSwitch_kept (s : State) : Kept s (mirrorSwitch s) := moveMirror_kept _ s

theorem mirrorSwitch_laserSafe (s : State) (h : LaserSafe s) : LaserSafe (mirrorSwitch s) := moveMirror_laserSafe _ s h

theorem mirrorMoves_kept (c : MirrorCount) (s : State) : Kept s (mirrorMoves c s) := by
  refine (Still.setPins s { s.pins with mirrorCount := c }).toKept.trans ?_
  unfold mirrorMoves; simp only
  repeat' split
  all_goals first
    | exact setMdu_kept _ _

theorem mirrorMoves_laserSafe (c : MirrorCount) (s : State) (h : LaserSafe s) : LaserSafe (mirrorMoves c s) := by
  unfold mirrorMoves; simp only
  repeat' split
  all_goals exact h.of_eq rfl rfl

theorem mirrorParks_laserSafe (s : State) (hp : s.mdu.state = .parking) (h : LaserSafe s) : LaserSafe (mirrorParks s) := by
  obtain ⟨h1, h2, h3, h4, h5⟩ := h
  refine ⟨?_, h2, h3, h4, h5⟩
  simpa [State.interlockHolds, mirrorParks, hp, MirrorState.coarseLock] using h1

theorem parkSettleExpiry_kept (s : State) : Kept s (parkSettleExpiry s) := by
  unfold parkSettleExpiry
  repeat' split
  all_goals first
    | exact (setMdu_kept s _).trans (positionedTest_still _).toKept
    | exact setMdu_kept s _

theorem parkSettleExpiry_laserSafe (s : State) (h : LaserSafe s) : LaserSafe (parkSettleExpiry s) := by
  unfold parkSettleExpiry
  split
  · rename_i hd
    have hp : s.mdu.state = .parking := by
      simp only [State.parkSettleDue, Bool.and_eq_true, beq_iff_eq] at hd; exact hd.1
    have h' := mirrorParks_laserSafe s hp h
    split
    · exact (positionedTest_still _).laserSafe h'
    all_goals exact h'
  · exact h

/-! ### The lease -/

theorem tokenAfter_ne_zero (t : Serial) : tokenAfter t ≠ 0 := by
  unfold tokenAfter
  split
  · decide
  · rename_i h
    intro e
    apply h
    have : t = t + 1 - 1 := by rw [BitVec.add_sub_cancel]
    rw [this, e]; rfl

theorem leaseEnds_kept (how : LeaseEnd) (s : State) : Kept s (leaseEnds how s).1 :=
  (setLec_kept s _).trans (reportEdge_still _ _ _).toKept

theorem leaseEnds_laserSafe (how : LeaseEnd) (s : State) (hs : s.lec.state = .leased) (h : LaserSafe s) :
    LaserSafe (leaseEnds how s).1 := by
  obtain ⟨h1, h2, h3, h4, h5⟩ := h
  have hsat : s.lec.satisfied = true := by
    cases e : s.lec.satisfied
    · exact absurd (h2.mpr e) (by rw [hs]; exact nofun)
    · rfl
  refine (reportEdge_still _ _ _).laserSafe ⟨h1, ⟨nofun, ?_⟩, nofun, fun _ => ⟨rfl, rfl⟩, h5⟩
  intro k
  exact absurd (hsat.symm.trans k) nofun

theorem leaseExpiry_kept (s : State) : Kept s (leaseExpiry s).1 := by
  unfold leaseExpiry; split
  · exact leaseEnds_kept _ s
  · exact .refl s

theorem leaseExpiry_laserSafe (s : State) (h : LaserSafe s) : LaserSafe (leaseExpiry s).1 := by
  unfold leaseExpiry; split
  · rename_i k; exact leaseEnds_laserSafe _ s k.1 h
  · exact h

theorem ilkChange_kept (x : Bool) (s : State) : Kept s (ilkChange x s).1 :=
  (setLec_kept s _).trans (evalInterlock_kept _)

theorem ilkChange_laserSafe (x : Bool) (s : State) (h : LaserSafe s) : LaserSafe (ilkChange x s).1 :=
  evalInterlock_laserSafe _ h.lockedOut h.leased h.unleased h.nextToken

/-- A lease taken or renewed while the interlock is satisfied (R111, R112). -/
theorem leaseFor_laserSafe (n : Nat) (s : State) (hn : 1 ≤ n ∧ n ≤ 60) (hs : s.lec.state ≠ .lockedOut) (h : LaserSafe s) :
    LaserSafe (s.leaseFor n) := by
  obtain ⟨h1, h2, h3, h4, h5⟩ := h
  refine ⟨h1, ⟨nofun, fun k => absurd (h2.mpr k) hs⟩, fun _ => ⟨_, _, rfl, h5, rfl, hn.1, hn.2⟩, fun k => absurd rfl k, ?_⟩
  exact tokenAfter_ne_zero _

/-! ### The photo run -/

theorem beginPositioning_kept (s : State) : Kept s (beginPositioning s).1 := by
  unfold beginPositioning; split
  · exact .refl s
  · exact ((slewTo_still _ s).toKept.trans (parkTo_kept _ _)).trans (Still.setPhu _ _).toKept

theorem beginPositioning_laserSafe (s : State) (h : LaserSafe s) : LaserSafe (beginPositioning s).1 := by
  unfold beginPositioning; split
  · exact h
  · exact (Still.setPhu _ _).laserSafe (parkTo_laserSafe _ _ ((slewTo_still _ s).laserSafe h))

theorem stationEnds_kept (m : Bool) (s : State) : Kept s (stationEnds m s).1 := by
  unfold stationEnds
  split
  · exact .refl s
  · simp only
    split
    · exact (((Still.setPhu s _).trans (appendTile_still _ _)).trans (.setPhu _ _)).toKept.trans
        (beginPositioning_kept _)
    · exact (((Still.setPhu s _).trans (appendTile_still _ _)).trans (endRun_still _ _ _ _)).toKept

theorem stationEnds_laserSafe (m : Bool) (s : State) (h : LaserSafe s) : LaserSafe (stationEnds m s).1 := by
  unfold stationEnds
  split
  · exact h
  · simp only
    split
    · exact beginPositioning_laserSafe _ (((Still.setPhu s _).trans (appendTile_still _ _)).trans
        (.setPhu _ _) |>.laserSafe h)
    · exact (((Still.setPhu s _).trans (appendTile_still _ _)).trans (endRun_still _ _ _ _)).laserSafe h

theorem positioningTimeout_kept (s : State) : Kept s (positioningTimeout s).1 := by
  unfold positioningTimeout; split
  · exact (Still.setPhu s _).toKept.trans (stationEnds_kept _ _)
  · exact .refl s

theorem positioningTimeout_laserSafe (s : State) (h : LaserSafe s) : LaserSafe (positioningTimeout s).1 := by
  unfold positioningTimeout; split
  · exact stationEnds_laserSafe _ _ ((Still.setPhu s _).laserSafe h)
  · exact h

theorem readoutEnd_kept (im : PixelList) (s : State) : Kept s (readoutEnd im s).1 := by
  unfold readoutEnd afterReadout
  repeat' split
  all_goals first
    | exact ((frameReady_still _ _ s).trans ((Still.setPhu _ _).trans (beginExposure_still _))).toKept
    | exact (frameReady_still _ _ s).toKept.trans (stationEnds_kept _ _)
    | exact .refl s

theorem readoutEnd_laserSafe (im : PixelList) (s : State) (h : LaserSafe s) : LaserSafe (readoutEnd im s).1 := by
  unfold readoutEnd afterReadout
  repeat' split
  all_goals first
    | exact ((frameReady_still _ _ s).trans ((Still.setPhu _ _).trans (beginExposure_still _))).laserSafe h
    | exact stationEnds_laserSafe _ _ ((frameReady_still _ _ s).laserSafe h)
    | exact h

theorem indexPulse_kept (s : State) : Kept s (indexPulse s).1 :=
  ((lockDetect_kept s).trans (sealAtPulse_still _ _).toKept).trans (scuPulse_still _ _ _).toKept

theorem indexPulse_laserSafe (s : State) (h : LaserSafe s) : LaserSafe (indexPulse s).1 :=
  (scuPulse_still _ _ _).laserSafe ((sealAtPulse_still _ _).laserSafe (lockDetect_laserSafe _ h))

theorem countsArrive_kept (m : MirrorCount) (h : HeadCount) (s : State) : Kept s (countsArrive m h s) :=
  (mirrorMoves_kept m s).trans (headArrives_still h _).toKept

theorem countsArrive_laserSafe (m : MirrorCount) (h : HeadCount) (s : State) (l : LaserSafe s) :
    LaserSafe (countsArrive m h s) :=
  (headArrives_still h _).laserSafe (mirrorMoves_laserSafe m s l)

end Sys2Proof.Machine
end

