-- ==== Sys2Proof/Laws/Operands.lean ====
section
/-! SUPPORT. The fields of a command read back as they were written (R167), and so do its kind and payload (R164, R166). -/

namespace Sys2Proof.Machine

theorem word2_bytes2 (v : Half) : word2 (v.setWidth 8) ((v >>> 8).setWidth 8) = v := by
  apply BitVec.eq_of_getLsbD_eq
  intro i hi
  simp only [word2, BitVec.getLsbD_append, BitVec.getLsbD_setWidth, BitVec.getLsbD_ushiftRight]
  by_cases h : i < 8
  · simp [h]
  · have h8 : i - 8 < 8 := by omega
    simp [h, h8, show 8 + (i - 8) = i by omega]

theorem word3_bytes3 (v : BitVec 24) :
    word3 (v.setWidth 8) ((v >>> 8).setWidth 8) ((v >>> 16).setWidth 8) = v := by
  apply BitVec.eq_of_getLsbD_eq
  intro i hi
  simp only [word3, BitVec.getLsbD_append, BitVec.getLsbD_setWidth, BitVec.getLsbD_ushiftRight]
  by_cases h : i < 8
  · simp [h, show i < 16 by omega]
  · by_cases h' : i < 16
    · have h8 : i - 8 < 8 := by omega
      simp [h, h', h8, show 8 + (i - 8) = i by omega]
    · have h8 : i - 16 < 8 := by omega
      simp [h', h8, show 16 + (i - 16) = i by omega]

theorem readExposures_exposureBytes (l : List (BitVec 24 × Byte)) : readExposures (exposureBytes l) = some l := by
  induction l with
  | nil => rfl
  | cons e es ih =>
    obtain ⟨t, g⟩ := e
    simp only [exposureBytes, List.flatMap_cons, bytes3, List.cons_append, List.nil_append] at ih ⊢
    simp only [readExposures]
    rw [show List.flatMap (fun e : BitVec 24 × Byte => e.1.setWidth 8 :: (e.1 >>> 8).setWidth 8 ::
      (e.1 >>> 16).setWidth 8 :: [e.2]) es = exposureBytes es from rfl] at *
    rw [ih]
    simp [word3_bytes3]

/-- STATION_SET's payload is read by `readStationSet`, whatever it holds. -/
theorem readPayload_stationSet (p : List Byte) : readPayload 0x15 p = readStationSet p := by
  unfold readPayload; rfl

theorem readPayload_hostPayload (c : HostCmd) (h : hostFits c = true) :
    readPayload (hostKind c).toNat (hostPayload c) = some c := by
  cases c with
  | stationSet st az el count ex =>
    simp only [hostFits, Bool.and_eq_true, decide_eq_true_eq] at h
    obtain ⟨⟨h1, h3⟩, hc⟩ := h
    refine (readPayload_stationSet _).trans ?_
    simp only [hostPayload, bytes3, bytes2, List.cons_append, List.nil_append]
    simp only [readStationSet, readExposures_exposureBytes, word3_bytes3, word2_bytes2]
    rw [if_neg (by omega), if_neg (by omega)]
  | profileSet bank speed pulses ws we az mode keep =>
    refine (rfl : _ = some (HostCmd.profileSet bank speed (word2 _ _) (word2 _ _) (word2 _ _) (word2 _ _) mode keep)).trans ?_
    simp only [word2_bytes2]
  | sweepStart id kind bank a0 length =>
    refine (rfl : _ = some (HostCmd.sweepStart (word2 _ _) kind bank (word3 _ _ _) (word3 _ _ _))).trans ?_
    simp only [word2_bytes2, word3_bytes3]
  | mirrorPark count => exact congrArg (fun v => some (HostCmd.mirrorPark v)) (word2_bytes2 count)
  | headSlew azimuth => exact congrArg (fun v => some (HostCmd.headSlew v)) (word3_bytes3 azimuth)
  | emitRenew token d => exact congrArg (fun v => some (HostCmd.emitRenew v d)) (word2_bytes2 token)
  | calSet page index v => exact congrArg (fun v => some (HostCmd.calSet page index v)) (word2_bytes2 v)
  | statusQuery _ => rfl
  | reset => rfl
  | profileGet _ => rfl
  | sweepAbort => rfl
  | gapsGet => rfl
  | mirrorSpin _ => rfl
  | mirrorStop => rfl
  | headHold => rfl
  | headRelease => rfl
  | emitRequest _ => rfl
  | emitOff => rfl
  | calGet _ => rfl
  | calCommit _ => rfl
  | calRevert _ => rfl
  | stationClear _ => rfl
  | stationGet _ => rfl
  | photoRunStart => rfl
  | photoRunAbort => rfl
  | subscribe _ _ => rfl
  | prioritySet _ _ => rfl
  | timebaseRestore => rfl

theorem knownKind_hostKind (c : HostCmd) : knownKind (hostKind c) = true := by cases c <;> rfl

/-- The dispatcher judges the frame of a host command as that command (R164). -/
theorem judge_hostFrame (tag : Byte) (c : HostCmd) (h : hostFits c = true) : judge (hostFrame tag c) = .command c := by
  simp only [judge, hostFrame, knownKind_hostKind, if_true, readPayload_hostPayload c h]

end Sys2Proof.Machine
end

