-- ==== Sys2Proof/Laws/Link.lean ====
section
/-! SUPPORT. A command frame that is taken at once (R163, R164): what is left of its row, and what its answer leaves. -/

namespace Sys2Proof.Machine

@[simp] theorem State.listening_inner (s : State) : s.listening.inner = s.inner := rfl

@[simp] theorem State.listening_fields (s : State) :
    s.listening.pending = s.pending ∧ s.listening.phase = s.phase ∧ s.listening.resetCause = s.resetCause ∧
    s.listening.tbu = s.tbu ∧ s.listening.pins = s.pins ∧ s.listening.scu = s.scu ∧ s.listening.las = s.las ∧
    s.listening.rtu = s.rtu ∧ s.listening.pfm = s.pfm ∧ s.listening.mdu = s.mdu ∧ s.listening.hdu = s.hdu ∧
    s.listening.lec = s.lec ∧ s.listening.cal = s.cal ∧ s.listening.phu = s.phu ∧
    s.listening.lnk = s.lnk.hunting ∧ s.listening.evr = s.evr ∧ s.listening.oba = s.oba ∧
    s.listening.freeDraw = s.freeDraw ∧ s.listening.now = s.now :=
  ⟨rfl, rfl, rfl, rfl, rfl, rfl, rfl, rfl, rfl, rfl, rfl, rfl, rfl, rfl, rfl, rfl, rfl, rfl, rfl⟩

/-! ### Commands and the reset wait -/

theorem softResetProceed_not_ready {s : State} (h : s.resetReady = false) : softResetProceed s = s := by
  simp [softResetProceed, h]

theorem softResetProceed_ready {s : State} (h : s.resetReady = true) : softResetProceed s = startUp .soft s := by
  simp [softResetProceed, h]

theorem State.resetReady_running {s : State} (h : s.phase = .running) : s.resetReady = false := by
  simp [State.resetReady, h]

/-- What a command taken in an active part does (R181). -/
theorem taken_active {s : State} (f : State → State) (h : s.active = true) : taken f s = .next (f s) := by
  simp only [State.active, Bool.and_eq_true, Bool.not_eq_true'] at h
  rw [taken, softResetProceed_not_ready h.2]

theorem taken_running {s : State} (f : State → State) (h : s.phase = .running) : taken f s = .next (f s) := by
  rw [taken, softResetProceed_not_ready (State.resetReady_running h)]

/-- What a command does that comes when nothing holds the reset wait any more (R181, log 5). -/
theorem taken_ready {s : State} (f : State → State) (h : s.resetReady = true) :
    taken f s = .next (f (startUp .soft s)) := by
  rw [taken, softResetProceed_ready h]

theorem State.up_of_active {s : State} (h : s.active = true) : s.phase.up = true := by
  simp only [State.active, Bool.and_eq_true] at h; exact h.1

/-! ### Frames -/

/-- A frame that is taken at once (R163, R164). -/
theorem receiveFrame_accepts (f : Frame) (s : State) (h : Accepts s) (hf : f.payload.length ≤ 4096) :
    receiveFrame f s = takeFrame f s.listening := by
  obtain ⟨hp, hx, hh, hr⟩ := h
  have e : (s.setLnk s.lnk.hunting).lnk.holding = none := hh
  rw [receiveFrame, if_pos ⟨hp, hx, hf⟩, offerFrame, e]
  simp only [dispatchHeld, State.setLnk_fields, State.setLnk_set]
  rw [if_pos ⟨hp, by simpa [Lnk.hunting] using hr⟩]
  congr 1
  simp only [State.listening, Lnk.hunting, hh]

theorem exposureBytes_length (l : List (BitVec 24 × Byte)) : (exposureBytes l).length = 4 * l.length := by
  induction l with
  | nil => rfl
  | cons e l ih => simp only [exposureBytes, List.flatMap_cons, List.length_append, List.length_cons] at ih ⊢; rw [ih]; simp [bytes3]; omega

/-- The payload of a command that fits its kind is short (R164). -/
theorem hostPayload_length (c : HostCmd) (hc : hostFits c = true) : (hostPayload c).length ≤ 19 := by
  cases c
  case stationSet st az el count ex =>
    have h : ex.length ≤ 3 := by
      simp only [hostFits, Bool.and_eq_true, decide_eq_true_eq] at hc; exact hc.1.2
    simp only [hostPayload, List.length_append, exposureBytes_length]
    simp only [bytes3, bytes2, List.length_cons, List.length_nil]; omega
  all_goals simp [hostPayload, bytes2, bytes3]

/-- A host command's row when its frame is taken at once: the command is executed and answered (R164). -/
theorem receiveCommand_accepts (tag : Byte) (c : HostCmd) (s : State) (h : Accepts s) (hc : hostFits c = true) :
    receiveCommand tag c s = answer (hostKind c) tag (runHost c s.listening) := by
  have hl : (hostFrame tag c).payload.length ≤ 4096 := Nat.le_trans (hostPayload_length c hc) (by decide)
  rw [receiveCommand, receiveFrame_accepts _ _ h hl, takeFrame, judge_hostFrame tag c hc]
  rfl

/-! ### Answers -/

@[simp] theorem tellAll_nil (s : State) : tellAll (s, []) = s := rfl

/-- An answer with nothing to tell. -/
@[simp] theorem answer_reply (kind tag : Byte) (u : State) (st : Status) (body : List Byte) :
    answer kind tag { state := u, reply := some (st, body), told := [] }
      = appendReply (replyFrame kind tag st body) u := rfl

/-- The reply of a state that already hunts with an empty holding buffer (R163 to R165). -/
theorem appendReply_answered (f : Frame) (s u : State) (hr : u.lnk.rx = .hunt) (hs : u.lnk.sawC3 = false)
    (ha : u.lnk.assembly = []) (hh : u.lnk.holding = none) (hc : u.lnk.crcErrors = s.lnk.crcErrors)
    (ho : u.lnk.overruns = s.lnk.overruns) (hb : LaneHeld s u) : Answered s (appendReply f u) f := by
  have e := boundary_lnk (u.setLnk { u.lnk with replies := u.lnk.replies ++ [f] })
  simp only [State.setLnk_fields, Lnk.mk.injEq] at e
  obtain ⟨e1, e2, e3, e4, -, e6, e7⟩ := e
  refine ⟨⟨e1.trans hr, e2.trans hs, e3.trans ha⟩, e4.trans hh, ⟨e6.trans hc, e7.trans ho⟩, appendReply_replyOut f u,
    fun h => ?_⟩
  have k := hb h
  rw [appendReply_quiet f u (.inl (by rw [k.1]; exact h))]
  exact ⟨by simp [k.2], k.1⟩

/-- A state whose link record is, but for replies, the one a command taken at once finds. -/
def Hears (s u : State) : Prop := { u.lnk with replies := s.lnk.replies } = { s.lnk.hunting with replies := s.lnk.replies }

theorem hears_listening (s : State) : Hears s s.listening := rfl

theorem Hears.answered {s u : State} (h : Hears s u) (hh : s.lnk.holding = none) (hb : LaneHeld s u) (f : Frame) :
    Answered s (appendReply f u) f := by
  simp only [Hears, Lnk.hunting, Lnk.mk.injEq] at h
  obtain ⟨h1, h2, h3, h4, -, h6, h7⟩ := h
  exact appendReply_answered f s u h1 h2 h3 (h4.trans hh) h6 h7 hb

theorem Hears.of_lnk {s u v : State} (h : Hears s u) (e : { v.lnk with replies := u.lnk.replies } = u.lnk) : Hears s v := by
  have e1 := congrArg Lnk.rx e
  have e2 := congrArg Lnk.sawC3 e
  have e3 := congrArg Lnk.assembly e
  have e4 := congrArg Lnk.holding e
  have e6 := congrArg Lnk.crcErrors e
  have e7 := congrArg Lnk.overruns e
  simp only [Hears, Lnk.hunting, Lnk.mk.injEq] at h e1 e2 e3 e4 e6 e7 ⊢
  simp only [e1, e2, e3, e4, e6, e7, h, and_self]

theorem Hears.set {s u v : State} (h : Hears s u) (e : v.lnk = u.lnk) : Hears s v := by
  simp only [Hears, e]; exact h

/-! ### The two outcomes of a command -/

/-- What a state that hunts with an empty holding buffer, but for the outbound side, and a command taken at once have to do
with each other: nothing but the link record. -/
theorem listening_arbited (s : State) : Arbited s s.listening := .of_eq rfl rfl rfl rfl

theorem listening_held (s : State) : LaneHeld s s.listening := .of_eq rfl rfl

/-- A command that is taken: the state it leaves, with its reply out and no other source disturbed (R164 to R166). -/
theorem command_ok {s u : State} {tag : Byte} {c : HostCmd} {body : List Byte} (h : Accepts s) (hc : hostFits c = true)
    (hr : runHost c s.listening = okWith u body) (hl : LinkKept s.listening u) (hb : LaneHeld s u) :
    (receiveCommand tag c s).inner = u.inner ∧ Undisturbed u (receiveCommand tag c s) ∧
      Answered s (receiveCommand tag c s) (replyFrame (hostKind c) tag .ok body) := by
  rw [receiveCommand_accepts _ _ _ h hc, hr]
  exact ⟨appendReply_inner _ _, appendReply_undisturbed _ _,
    Hears.answered ((hears_listening s).of_lnk hl) h.2.2.1 hb _⟩

theorem listening_undisturbed {s t : State} (h : Undisturbed s.listening t) : Undisturbed s t := ⟨h.1, h.2, h.3, h.4⟩

/-- A command that is refused: nothing changes but its reply (R166). -/
theorem command_refused {s : State} {tag : Byte} {c : HostCmd} {st : Status} {body : List Byte} (h : Accepts s)
    (hc : hostFits c = true) (hr : runHost c s.listening = refuse s.listening st body) :
    (receiveCommand tag c s).inner = s.inner ∧ Undisturbed s (receiveCommand tag c s) ∧
      Answered s (receiveCommand tag c s) (replyFrame (hostKind c) tag st body) := by
  rw [receiveCommand_accepts _ _ _ h hc, hr]
  exact ⟨appendReply_inner _ _, listening_undisturbed (appendReply_undisturbed _ _),
    Hears.answered (hears_listening s) h.2.2.1 (listening_held s) _⟩

/-- A command that is taken and has blocks to tell: they are told after the reply (log 22). -/
theorem command_told {s u : State} {tag : Byte} {c : HostCmd} {body : List Byte} {told : List Told} (h : Accepts s)
    (hc : hostFits c = true) (hr : runHost c s.listening = okWith u body told) :
    receiveCommand tag c s = tellAll (appendReply (replyFrame (hostKind c) tag .ok body) u, told) := by
  rw [receiveCommand_accepts _ _ _ h hc, hr]
  rfl

end Sys2Proof.Machine
end

