-- ==== Sys2Proof/Laws/Host.lean ====
section
/-! SUPPORT. Host commands as a whole: none touches the queue of commands, and each keeps `LaserSafe`; so does a frame, a
byte, and the end of an outbound frame. -/

namespace Sys2Proof.Machine

/-- The queue is the same, and the emission record stays safe. -/
structure Sound (s t : State) : Prop where
  pending : t.pending = s.pending
  laser   : LaserSafe s → LaserSafe t

theorem Sound.refl (s : State) : Sound s s := ⟨rfl, id⟩

theorem Sound.trans {s t u : State} (h : Sound s t) (k : Sound t u) : Sound s u :=
  ⟨k.pending.trans h.pending, k.laser ∘ h.laser⟩

theorem Still.sound {s t : State} (h : Still s t) : Sound s t := ⟨h.pending, h.laserSafe⟩

theorem Sound.of_kept {s t : State} (h : Kept s t) (k : LaserSafe s → LaserSafe t) : Sound s t := ⟨h.pending, k⟩

theorem setLnk_sound (s : State) (x : Lnk) : Sound s (s.setLnk x) := ⟨rfl, fun h => h.of_eq rfl rfl⟩
theorem setCal_sound (s : State) (x : Cal) : Sound s (s.setCal x) := ⟨rfl, fun h => h.of_eq rfl rfl⟩
theorem setTbu_sound (s : State) (x : Tbu) : Sound s (s.setTbu x) := ⟨rfl, fun h => h.of_eq rfl rfl⟩
theorem setPhase_sound (s : State) (x : Phase) : Sound s (s.setPhase x) := ⟨rfl, fun h => h.of_eq rfl rfl⟩
theorem setFreeDraw_sound (s : State) (x : Nat) : Sound s (s.setFreeDraw x) := ⟨rfl, fun h => h.of_eq rfl rfl⟩

theorem spinMirror_sound (v : Fin 4) (s : State) : Sound s (spinMirror v s).1 :=
  .of_kept (spinMirror_kept v s) (spinMirror_laserSafe v s)

theorem parkTo_sound (x : MirrorCount) (s : State) : Sound s (parkTo x s).1 :=
  .of_kept (parkTo_kept x s) (parkTo_laserSafe x s)

theorem moveMirror_sound (m : Mdu) (s : State) : Sound s (moveMirror m s).1 :=
  .of_kept (moveMirror_kept m s) (moveMirror_laserSafe m s)

theorem mirrorSwitch_sound (s : State) : Sound s (mirrorSwitch s) := moveMirror_sound _ s

theorem refuse_state (s : State) (st : Status) (b : List Byte) : (refuse s st b).state = s := rfl

theorem okWith_state (s : State) (b : List Byte) (t : List Told) : (okWith s b t).state = s := rfl

theorem startSweep_sound (q : SweepRequest) (s : State) : Sound s (startSweep q s).1 :=
  (((Still.setScu s _).trans (.setHdu _ _)).trans (.setMduOwner _ _)).sound.trans (slewTo_still _ _).sound

theorem startRun_sound (l : List (Fin 32)) (s : State) : Sound s (startRun l s).1 :=
  (((Still.setPhu s _).trans (.setHdu _ _)).trans (.setMduOwner _ _)).sound.trans
    (.of_kept (beginPositioning_kept _) (beginPositioning_laserSafe _))

theorem cmdEmit_sound (d : Byte) (t : Half) (s : State) :
    Sound s (cmdEmitRequest d s).state ∧ Sound s (cmdEmitRenew t d s).state ∧ Sound s (cmdEmitOff s).state := by
  refine ⟨?_, ?_, ?_⟩
  · unfold cmdEmitRequest
    split
    · exact .refl s
    · rename_i hd
      split
      · exact .refl s
      · exact .refl s
      · rename_i hs
        refine ⟨(reportEdge_still _ _ _).pending, fun h => (reportEdge_still _ _ _).laserSafe ?_⟩
        exact leaseFor_laserSafe _ s (by omega) (by rw [hs]; exact nofun) h
  · unfold cmdEmitRenew
    split
    · exact .refl s
    · rename_i hd
      split
      · rename_i hs
        split
        · exact ⟨rfl, fun h => leaseFor_laserSafe _ s (by omega) (by rw [hs]; exact nofun) h⟩
        · exact .refl s
      · exact .refl s
      · exact .refl s
  · unfold cmdEmitOff
    split
    · rename_i hs
      exact ⟨(leaseEnds_kept _ s).pending, leaseEnds_laserSafe _ s hs⟩
    · exact .refl s
    · exact .refl s

/-- Every host command leaves the queue of commands as it stands and keeps the emission record safe. -/
theorem runHost_sound (c : HostCmd) (s : State) : Sound s (runHost c s).state := by
  cases c with
  | statusQuery clear =>
    simp only [runHost, cmdStatusQuery]
    split
    · exact (Still.setRtu s _).sound.trans (setLnk_sound _ _)
    all_goals exact .refl s
  | reset => exact setPhase_sound s _
  | profileSet bank speed pulses ws we az mode keep =>
    simp only [runHost, cmdProfileSet]
    repeat' split
    all_goals first
      | exact setCal_sound s _
  | profileGet bank => simp only [runHost, cmdProfileGet]; split <;> exact .refl s
  | sweepStart id kind bank a0 length =>
    simp only [runHost, cmdSweepStart]
    repeat' split
    all_goals first
      | exact startSweep_sound _ s
      | exact .refl s
  | sweepAbort =>
    simp only [runHost, cmdSweepAbort]
    split
    · exact .refl s
    all_goals exact (interrupt_still _ s).sound
  | gapsGet => exact .refl s
  | mirrorSpin speed =>
    simp only [runHost, cmdMirrorSpin]
    repeat' split
    all_goals first
      | exact spinMirror_sound _ s
      | exact .refl s
  | mirrorPark count =>
    simp only [runHost, cmdMirrorPark]
    repeat' split
    all_goals first
      | exact parkTo_sound _ s
      | exact .refl s
  | mirrorStop =>
    simp only [runHost, cmdMirrorStop]
    split
    · exact .refl s
    · exact moveMirror_sound _ s
  | headSlew azimuth =>
    simp only [runHost, cmdHeadSlew]
    repeat' split
    all_goals first
      | exact (slewTo_still _ s).sound
      | exact .refl s
  | headHold =>
    simp only [runHost, cmdHeadHold]
    split
    · exact .refl s
    · exact (holdHead_still s).sound
  | headRelease =>
    simp only [runHost, cmdHeadRelease]
    repeat' split
    all_goals first
      | exact ((Still.setHdu s _).trans (reportEdge_still _ _ _)).sound
      | exact (Still.setHdu s _).sound
  | emitRequest d => exact (cmdEmit_sound d 0 s).1
  | emitRenew t d => exact (cmdEmit_sound d t s).2.1
  | emitOff => exact (cmdEmit_sound 0 0 s).2.2
  | calSet page index value =>
    simp only [runHost, cmdCalSet]
    repeat' split
    all_goals first
      | exact setCal_sound s _
  | calGet page => simp only [runHost, cmdCalGet]; split <;> exact .refl s
  | calCommit mask =>
    simp only [runHost, cmdCalCommit]
    repeat' split
    all_goals first
      | exact setCal_sound s _
  | calRevert mask =>
    simp only [runHost, cmdCalRevert]
    repeat' split
    all_goals first
      | exact setCal_sound s _
  | stationSet st az el count ex =>
    simp only [runHost, cmdStationSet]
    repeat' split
    all_goals first
      | exact (Still.setPhu s _).sound
  | stationClear st =>
    simp only [runHost, cmdStationClear]
    repeat' split
    all_goals first
      | exact (Still.setPhu s _).sound
  | stationGet st => simp only [runHost, cmdStationGet]; split <;> exact .refl s
  | photoRunStart =>
    simp only [runHost, cmdPhotoRunStart]
    repeat' split
    all_goals first
      | exact startRun_sound _ s
      | exact .refl s
  | photoRunAbort =>
    simp only [runHost, cmdPhotoRunAbort]
    split
    · exact .refl s
    all_goals exact (earlyEnd_still _ _ s).sound
  | subscribe condition edge =>
    simp only [runHost, cmdSubscribe]
    split
    · exact (Still.setEvr s _).sound
    · exact .refl s
  | prioritySet source level =>
    simp only [runHost, cmdPrioritySet]
    repeat' split
    all_goals first
      | exact (Still.setOba s _).sound
  | timebaseRestore =>
    simp only [runHost, cmdTimebaseRestore]
    split
    · exact ((setTbu_sound s _).trans (reportEdge_still _ _ _).sound).trans (mirrorSwitch_sound _)
    all_goals exact .refl s

theorem answer_sound (kind tag : Byte) (r : CmdResult) : Sound r.state (answer kind tag r) := by
  unfold answer
  split
  · exact (appendReply_still _ _).sound.trans (tellAll_still (_, r.told)).sound
  · exact (tellAll_still (r.state, r.told)).sound

theorem takeFrame_sound (f : Frame) (s : State) : Sound s (takeFrame f s) := by
  unfold takeFrame
  split
  · exact answer_sound _ _ (refuse s _ _)
  · exact answer_sound _ _ (refuse s _ _)
  · exact (runHost_sound _ s).trans (answer_sound _ _ _)

theorem dispatchHeld_sound (s : State) : Sound s (dispatchHeld s) := by
  unfold dispatchHeld
  split
  · split
    · exact (setLnk_sound s _).trans (takeFrame_sound _ _)
    · exact .refl s
  · exact .refl s

theorem offerFrame_sound (f : Frame) (s : State) : Sound s (offerFrame f s) := by
  unfold offerFrame
  split
  · exact (setLnk_sound s _).trans (dispatchHeld_sound _)
  · exact (setLnk_sound s _)

theorem frameEnds_sound (a : List Byte) (s : State) : Sound s (frameEnds a s) := by
  unfold frameEnds
  simp only
  split
  · exact (setLnk_sound s _).trans (offerFrame_sound _ _)
  · exact (setLnk_sound s _)

theorem rxByte_sound (s : State) (b : Byte) : Sound s (rxByte s b) := by
  unfold rxByte rxHunt rxHeader rxPayload
  simp only
  repeat' split
  all_goals first
    | exact frameEnds_sound _ s
    | exact (setLnk_sound s _)

theorem feed_sound (bytes : List Byte) (s : State) : Sound s (feed bytes s) := by
  unfold feed
  induction bytes generalizing s with
  | nil => exact .refl s
  | cons b bs ih => exact (rxByte_sound s b).trans (ih _)

theorem receiveFrame_sound (f : Frame) (s : State) : Sound s (receiveFrame f s) := by
  unfold receiveFrame
  split
  · exact (setLnk_sound s _).trans (offerFrame_sound _ _)
  · exact feed_sound _ s

theorem itemSent_sound (x : LaneItem) (s : State) : Sound s (itemSent x s) := by
  cases x
  case lineChunk i => exact (chunkSent_still i s).sound
  case framePart i => exact (framePartSent_still i s).sound
  all_goals exact .refl s

theorem outboundFrameEnd_sound (s : State) : Sound s (outboundFrameEnd s) := by
  unfold outboundFrameEnd
  split
  · split
    · exact (((itemSent_sound _ s).trans (Still.setOba _ _).sound).trans (boundary_still _).sound).trans
        (dispatchHeld_sound _)
    · exact .refl s
  · exact .refl s

end Sys2Proof.Machine
end

