-- ==== Sys2Proof/Laws/Image.lean ====
section
/-! SUPPORT. The frame store's images (R151, log 21): a write keeps the canonical form, reads back, and touches no other
pixel. -/

namespace Sys2Proof.Machine

theorem risingFrom_mono {a b : Nat} (h : a ≤ b) : ∀ {l : PixelList}, PixelList.risingFrom b l = true →
    PixelList.risingFrom a l = true
  | [], _ => rfl
  | (n, v) :: rest, k => by
    simp only [PixelList.risingFrom, Bool.and_eq_true, decide_eq_true_eq] at k ⊢
    exact ⟨Nat.le_trans h k.1, k.2⟩

theorem writePixel_rising (n : Nat) (v : BitVec 12) : ∀ (l : PixelList) (low : Nat), low ≤ n →
    PixelList.risingFrom low l = true → PixelList.risingFrom low (writePixel n v l) = true
  | [], low, h, _ => by
    unfold writePixel; split <;> simp [PixelList.risingFrom, h]
  | (m, w) :: rest, low, h, k => by
    simp only [PixelList.risingFrom, Bool.and_eq_true, decide_eq_true_eq] at k
    unfold writePixel
    split
    · rename_i hlt
      split
      · simp [PixelList.risingFrom, k.1, k.2]
      · simp only [PixelList.risingFrom, Bool.and_eq_true, decide_eq_true_eq]
        exact ⟨h, hlt, k.2⟩
    · split
      · rename_i e
        subst e
        split
        · exact risingFrom_mono (Nat.le_succ_of_le k.1) k.2
        · simp [PixelList.risingFrom, h, k.2]
      · simp only [PixelList.risingFrom, Bool.and_eq_true, decide_eq_true_eq]
        exact ⟨k.1, writePixel_rising n v rest (m + 1) (by omega) k.2⟩

theorem writePixel_bounds (n : Nat) (v : BitVec 12) (hn : n < framePixels) : ∀ (l : PixelList),
    (l.all fun p => decide (p.1 < framePixels) && p.2 != 0) = true →
    ((writePixel n v l).all fun p => decide (p.1 < framePixels) && p.2 != 0) = true
  | [], _ => by
    unfold writePixel
    split
    · rfl
    · rename_i hv
      simp only [List.all_cons, List.all_nil, Bool.and_true, Bool.and_eq_true]
      exact ⟨by simpa using hn, by simpa using hv⟩
  | (m, w) :: rest, k => by
    have k' := k
    simp only [List.all_cons, Bool.and_eq_true] at k'
    have hnb : decide (n < framePixels) = true := by simpa using hn
    unfold writePixel
    split
    · split
      · exact k
      · rename_i hv
        simp only [List.all_cons, Bool.and_eq_true]
        exact ⟨⟨hnb, by simpa using hv⟩, k'⟩
    · split
      · split
        · exact k'.2
        · rename_i hv
          simp only [List.all_cons, Bool.and_eq_true]
          exact ⟨⟨hnb, by simpa using hv⟩, k'.2⟩
      · simp only [List.all_cons, Bool.and_eq_true]
        exact ⟨k'.1, writePixel_bounds n v hn rest k'.2⟩

/-- A write inside the frame keeps the canonical form. -/
theorem writePixel_wf (n : Nat) (v : BitVec 12) (hn : n < framePixels) (l : PixelList) (h : PixelList.wf l = true) :
    PixelList.wf (writePixel n v l) = true := by
  simp only [PixelList.wf, Bool.and_eq_true] at h ⊢
  exact ⟨writePixel_rising n v l 0 (Nat.zero_le _) h.1, writePixel_bounds n v hn l h.2⟩

/-- A pixel below every listed one reads 0. -/
theorem readPixel_below : ∀ (l : PixelList) (low n : Nat), PixelList.risingFrom low l = true → n < low → readPixel l n = 0
  | [], _, _, _, _ => rfl
  | (m, w) :: rest, low, n, k, h => by
    simp only [PixelList.risingFrom, Bool.and_eq_true, decide_eq_true_eq] at k
    rw [readPixel, if_neg (by omega)]
    exact readPixel_below rest (m + 1) n k.2 (by omega)

/-- Reading after a write: the value written at its place, what stood there elsewhere. -/
theorem readPixel_writePixel (n : Nat) (v : BitVec 12) (k : Nat) : ∀ (l : PixelList) (low : Nat),
    PixelList.risingFrom low l = true → readPixel (writePixel n v l) k = if k = n then v else readPixel l k
  | [], _, _ => by
    unfold writePixel
    split
    · rename_i hv; subst hv; simp [readPixel]
    · simp only [readPixel]; split <;> split <;> first | rfl | omega
  | (m, w) :: rest, low, h => by
    simp only [PixelList.risingFrom, Bool.and_eq_true, decide_eq_true_eq] at h
    unfold writePixel
    split
    · rename_i hlt
      split
      · rename_i hv
        subst hv
        split
        · rename_i e
          subst e
          rw [readPixel, if_neg (by omega)]
          exact readPixel_below rest (m + 1) k h.2 (by omega)
        · rfl
      · rw [readPixel]
        by_cases e : n = k
        · simp [e]
        · rw [if_neg e, if_neg (fun x => e x.symm)]
    · split
      · rename_i e
        subst e
        split
        · rename_i hv
          subst hv
          split
          · rename_i e
            subst e
            exact readPixel_below rest (k + 1) k h.2 (by omega)
          · rename_i e
            rw [readPixel, if_neg (fun x => e x.symm)]
        · rw [readPixel, readPixel]
          by_cases e : n = k
          · simp [e]
          · rw [if_neg e, if_neg e, if_neg (fun x => e x.symm)]
      · rename_i h1 h2
        rw [readPixel, readPixel]
        by_cases e : m = k
        · rw [if_pos e, if_pos e, if_neg (by omega)]
        · rw [if_neg e, if_neg e]
          exact readPixel_writePixel n v k rest (m + 1) h.2

end Sys2Proof.Machine
end

