-- ==== Sys2Proof/Tests/Slice0.lean ====
section
/-! SUPPORT. The model's own tests: ill-formed terms refused, figures of the spec's worked examples, and for each statement
with hypotheses a state that meets them, clause by clause. -/

namespace Sys2Proof.Tests

set_option Elab.async false

open Sys2Proof.Machine

/-! ### Small states -/

/-- The part running, its store IDLE. -/
def calm : State := (State.reset.setPhase .running).setCal { Cal.manufactured with state := .idle }

/-- The mirror in a state, at the time of the other blocks. -/
def withMirror (st : MirrorState) (s : State) : State := s.setMdu { s.mdu with state := st }

/-- The head in a state. -/
def withHead (st : HeadState) (s : State) : State := s.setHdu { s.hdu with state := st }

/-- The emission record of a lease under token 7 that expires at tick 9. -/
def leaseRec : Lec :=
  { state := .leased, ilkHigh := true, satisfied := true, token := some 7, expiry := some 9, duration := 20,
    nextToken := 8, lastEnd := .none }

/-- LEASED, ILK HIGH, the mirror in FINE. -/
def lit : State := (withMirror .fine calm).setLec leaseRec

/-- OFF, ILK HIGH, the mirror in COARSE. -/
def dim : State :=
  (withMirror .coarse calm).setLec { leaseRec with state := .off, token := none, expiry := none }

/-- A sweep in a state, three lines, the first decided. -/
def withSweep (st : SweepState) (s : State) : State := s.setScu { s.scu with state := st, lines := 3, k := 1 }

/-- The run in a state over station 3 alone, which has two exposures. -/
def withRun (st : RunState) (s : State) : State :=
  s.setPhu { s.phu.setStation 3
      { state := .planned, azimuth := 0, elevation := 0, exposures := [⟨10, 0⟩, ⟨500000, 7⟩] } with
    state := st, runList := [3], slotInUse := some 0 }

/-- A frame on the lane that ends now. -/
def sending : Sending := { item := .reply, frame := ⟨0x81, 1, []⟩, endTick := 0 }

/-- A lane that sends. -/
def withLane (s : State) : State := s.setOba { s.oba with lane := some sending }

/-- A lane whose frame of an item ends now, one reply waiting. -/
def ending (item : LaneItem) (s : State) : State :=
  (s.setOba { s.oba with lane := some { sending with item := item } }).setLnk { s.lnk with replies := [⟨0x81, 1, []⟩] }

/-- Slot 0 FILLING, with 512 pulses, in a fire mode. -/
def slotFilling (m : FireMode) : LineSlot := { LineSlot.free with state := .filling, scheduled := 512, mode := m }

def withLine (m : FireMode) (s : State) : State := s.setSlot 0 (slotFilling m)

/-- A fire log entry of slot 0, fired at tick 0. -/
def entryAt0 (seq : Serial) : FireEntry := { seq := seq, slot := 0, pulse := 0, mirror := 1500, head := 164230, tick := 0 }

def withLog (es : List FireEntry) (s : State) : State := s.setRtu { s.rtu with fireLog := es }

def atTick (t : Tick) (s : State) : State := s.setTbu { s.tbu with tick := t }

theorem calm_accepts : Accepts calm := ⟨rfl, rfl, rfl, by decide⟩

/-- What a command does to the reply queue and the lane, and so the whole state, is of no concern to acceptance. -/
theorem accepts_like {s t : State} (h : Accepts s) (hp : t.phase = s.phase) (hl : t.lnk = s.lnk) : Accepts t := by
  unfold Accepts; rw [hp, hl]; exact h

theorem withSweep_interruptible (s : State) : (withSweep .scanning s).interruptible := ⟨nofun, nofun⟩

theorem lit_accepts : Accepts lit := accepts_like calm_accepts rfl rfl

theorem dim_accepts : Accepts dim := accepts_like calm_accepts rfl rfl

/-! ### Ill-formed terms -/

theorem test_wf_station_without_exposures : Instr.wf (.stationSet 0 0 0 0 1 []) = false := by decide

theorem test_wf_station_with_four_exposures :
    Instr.wf (.stationSet 0 0 0 0 3 [(10, 0), (10, 0), (10, 0), (10, 0)]) = false := by decide

theorem test_wf_unknown_kind_of_the_catalogue : Instr.wf (.unknownKind 0 0x1C []) = false := by decide

theorem test_wf_unknown_kind_too_long : Instr.wf (.unknownKind 0 0x1D (List.replicate 4097 0)) = false := by
  decide +kernel

theorem test_wf_no_inbound_bytes : Instr.wf (.inboundFrameComplete []) = false := by decide

theorem test_wf_sync_pair_without_5A : Instr.wf (.syncPairFound [0xC3]) = false := by decide

theorem test_wf_length_without_bytes : Instr.wf (.lengthAbove4096 []) = false := by decide

theorem test_wf_image_out_of_order : Instr.wf (.readoutEnd [(2, 1), (1, 1)]) = false := by decide

theorem test_wf_image_lists_zero : Instr.wf (.readoutEnd [(1, 0)]) = false := by decide

theorem test_wf_image_past_the_frame : Instr.wf (.readoutEnd [(3145728, 1)]) = false := by decide

theorem test_wf_accepts :
    Instr.wf (.stationSet 0 0 0 0 1 [(10, 0)]) = true ∧ Instr.wf (.unknownKind 0 0x1D []) = true ∧
    Instr.wf (.syncPairFound [0xC3, 0x5A]) = true ∧ Instr.wf (.readoutEnd [(1, 1), (3145727, 4095)]) = true := by decide

/-! ### The queue -/

theorem test_decode_spells_nothing : decodeTableWord 8 1 = none := by decide

theorem test_fetch_leaves_the_queue : (calm.withFetchWord 8 1).pending = [] := by decide

/-! ### Figures of the worked examples -/

/-- The pages of 7.8. -/
def examplePages : Pages :=
  { Pages.defaults with
    vangle := (((Vector.replicate 64 0).set 5 (-37)).set 6 21).set 63 8 |>.set 0 (-10)
    hangle := ((Vector.replicate 64 0).set 0 (-12)).set 5 (-12)
    rangeOffset := -250
    walk := (((Vector.replicate 16 0).set 0 (-60)).set 1 (-40)).set 7 14 }

theorem test_vangle_of_7_8 :
    correctVangle examplePages.vangle 1500 = 23983 ∧ correctVangle examplePages.vangle 40 = 636 ∧
    correctVangle examplePages.vangle 0 = 262143 := by decide +kernel

theorem test_azimuth_of_7_8 :
    correctAzimuth examplePages.hangle 1500 164230 = 164218 ∧ correctAzimuth examplePages.hangle 0 5 = 1048569 := by
  decide +kernel

/-- The echoes of 7.8. -/
def echoA : RawEcho := ⟨412530, 1800⟩
def echoB : RawEcho := ⟨412540, 300⟩

theorem test_echo_selection_of_7_8 :
    (selectEchoes .first examplePages [echoA, echoB]).map Echo.range = [412294] ∧
    (selectEchoes .last examplePages [echoA, echoB]).map Echo.range = [412250] ∧
    (selectEchoes .strongest examplePages [echoA, echoB]).map Echo.range = [412294] ∧
    (selectEchoes .all examplePages [echoA, echoB]).map Echo.range = [412250, 412294] := by decide +kernel

theorem test_range_clamped_of_7_8 : correctRange (-250) examplePages.walk ⟨120, 100⟩ = 0 := by decide +kernel

theorem test_default_profile_figures :
    Profile.default.windowLength = 13653 ∧ Profile.default.accepted = true ∧
    Profile.default.position 0 = 1366 ∧ Profile.default.position 4095 = 15015 := by decide +kernel

theorem test_slew_directions_of_5_9 :
    slewDirection 1000000 40000 = .negative ∧ headDistance 1000000 40000 = 88576 ∧
    slewDirection 30000 1040000 = .positive ∧ headDistance 30000 1040000 = 38576 := by decide

theorem test_comparisons_of_4_9 :
    coarseMatch 412000 400000 = false ∧ coarseMatch 403100 400000 = true ∧ fineMatch 403100 400000 = false ∧
    fineMatch 400150 400000 = true ∧ fineMatch 400260 400000 = false ∧ coarseMatch 400260 400000 = true := by decide

theorem test_gaps_of_1_9 :
    let g : GapList := { entries := [], reference := 100000, overflow := false, lastChanger := 41 }
    (((g.add 41 1280 128).add 41 1408 128).add 41 64000 128).entries = [⟨1280, 256⟩, ⟨64000, 128⟩] := by decide

/-- The fire log of 3.9 at step 5. -/
def logOf39 : List FireEntry := [entryAt0 509, entryAt0 510, entryAt0 511, entryAt0 512]

theorem test_match_passes_over_of_3_9 :
    ((takeMatching ⟨254, none, [echoA]⟩ (withLog logOf39 (withLine .firing calm))).rtu.fireLog.map FireEntry.seq,
      (takeMatching ⟨254, none, [echoA]⟩ (withLog logOf39 (withLine .firing calm))).las.slots[(0 : Fin 8)].lost)
      = ([511, 512], 1) := by decide +kernel

theorem test_stray_record_of_3_9 :
    (takeMatching ⟨37, none, []⟩ (withLog logOf39 calm)).rtu.matcher = .hunt ∧
    (takeMatching ⟨37, none, []⟩ (withLog logOf39 calm)).rtu.strayRecords = 1 := by decide +kernel

theorem test_marked_record_of_3_9 :
    (takeHunt ⟨0, some 2, []⟩ (withLog [entryAt0 511, entryAt0 512] calm)).rtu.fireLog = [] ∧
    (takeHunt ⟨0, some 2, []⟩ (withLog [entryAt0 511, entryAt0 512] calm)).rtu.matcher = .matching := by decide +kernel

theorem test_marked_record_late_of_3_9 : (takeHunt ⟨0, some 2, []⟩ calm) = calm := by decide +kernel

theorem test_renew_under_an_old_token_of_6_8 : (cmdEmitRenew 6 20 lit).reply = some (.token, []) := by decide +kernel

/-- One advance past two positions fires both, at the count that was reached (R48). -/
theorem test_positions_passed_at_once :
    ((pulseOpportunity ((withLine .firing (withSweep .scanning lit)).setPins
      { lit.pins with mirrorCount := 1370 })).rtu.fireLog.map fun e => (e.pulse, e.mirror)) = [(0, 1370), (1, 1370)] := by
  decide +kernel

/-- LOADING_COMPLETE that comes when nothing holds the reset wait any more finds the part loading (R181). -/
theorem test_reset_proceeds_before_loading_complete :
    exec (.loadingComplete false) (calm.setPhase .resetWait)
      = .next (loadingComplete false (startUp .soft (calm.setPhase .resetWait))) :=
  taken_ready (loadingComplete false) (by decide +kernel)

theorem test_chunk_of_an_empty_line : LineSlot.free.chunks = [[]] := by decide

theorem test_frame_of_status_query :
    ((hostFrame 5 (.statusQuery 0)).bytes.take 7, (hostFrame 5 (.statusQuery 0)).bytes.length)
      = ([0xC3, 0x5A, 0x01, 0x05, 0x01, 0x00, 0x00], 9) := by decide +kernel

theorem test_tile_pixels : tilePixel 0 0 = 0 ∧ tilePixel 1535 2047 = 3145727 ∧ tilePixel 33 64 = 2048 * 33 + 64 := by
  decide

/-! ### Hypotheses that are met: queue, invariants, link -/

theorem test_hyp_StepRunsTheFrontCommand :
    (calm.setPending [.powerOnReset]).pending = .powerOnReset :: [] := rfl

theorem test_hyp_IdleStepIsOneTick :
    (calm.setPhase .off).pending = [] ∧ (calm.setPhase .off).phase = .off ∧ (calm.setPhase .held).phase = .held ∧
    (calm.setPhase .resetWait).resetReady = true ∧ calm.phase.up = true ∧ calm.resetReady = false ∧
    (withLane (calm.setPhase .resetWait)).resetReady = false := by decide +kernel

theorem lit_safe : LaserSafe lit :=
  ⟨by decide, by decide, fun _ => ⟨7, 9, rfl, by decide, rfl, by decide, by decide⟩, fun h => absurd rfl h, by decide⟩

theorem test_hyp_LaserStaysSafeAtEveryStep : lit.laserSafe ∧ step lit = .next (idle lit) := ⟨fun _ => lit_safe, rfl⟩

/-- A part at its sizes: 16 events, 32 entries, four replies, 16 gaps. -/
def full : State :=
  ((((calm.setEvr { calm.evr with queue := List.replicate 16 ⟨.storeDone 1 [], 0⟩, lost := 255 }).setRtu { calm.rtu with
      fireLog := List.replicate 32 (entryAt0 1) }).setLnk { calm.lnk with
      replies := List.replicate 4 ⟨0x81, 1, []⟩ }).setScu { calm.scu with gaps := { calm.scu.gaps with
      entries := (List.range 16).map fun i => ⟨2 * i, 1⟩ } }).setOba { calm.oba with lane := some sending }

theorem test_hyp_SizesStayBoundedAtEveryStep : Bounded full ∧ step full = .next (idle full) :=
  ⟨by constructor <;> decide +kernel, rfl⟩

theorem test_hyp_LaneStaysFedAtEveryStep : LaneFed calm ∧ step calm = .next (idle calm) :=
  ⟨fun _ _ x => by cases x <;> decide, rfl⟩

theorem test_hyp_OneLineFillsAtEveryStep :
    OneFilling (withSweep .scanning (withLine .firing calm)) ∧
    (withSweep .scanning (withLine .firing calm)).las.slots[(0 : Fin 8)].state = .filling ∧
    step (withSweep .scanning (withLine .firing calm)) = .next (idle (withSweep .scanning (withLine .firing calm))) :=
  ⟨⟨by decide +kernel, fun _ _ => .inl rfl⟩, by decide +kernel, rfl⟩

theorem test_hyp_FrameBytesComeThroughTheReceiver :
    (Frame.mk 1 2 (List.replicate 4096 0)).payload.length ≤ 4096 ∧ calm.phase = .running ∧ calm.lnk.rx = .hunt :=
  ⟨Nat.le_of_eq List.length_replicate, rfl, rfl⟩

/-- The receiver in HEADER with three bytes. -/
def inHeader : State := calm.setLnk { calm.lnk with rx := .header, assembly := [1, 2, 1] }

theorem test_hyp_ReceiverEventsMoveTheReceiver :
    calm.phase = .running ∧ calm.lnk.rx = .hunt ∧ inHeader.phase = .running ∧ inHeader.lnk.rx = .header ∧
    inHeader.lnk.assembly = [1, 2, 1] ∧ 4096 < (1 : Byte).toNat + 256 * (16 : Byte).toNat ∧ inHeader.lnk.rx ≠ .hunt ∧
    (Frame.mk 1 2 [0]).payload.length ≤ 4096 ∧
    (0 : Byte).toNat + 256 * (0 : Byte).toNat ≠ (crc16 (Frame.mk 1 2 [0]).checked).toNat := by decide +kernel

theorem test_hyp_UnknownKindIsAnswered :
    Accepts calm ∧ ¬ (1 ≤ (0 : Byte).toNat ∧ (0 : Byte).toNat ≤ 28) ∧
    ¬ (1 ≤ (29 : Byte).toNat ∧ (29 : Byte).toNat ≤ 28) ∧ (List.replicate 4096 (0 : Byte)).length ≤ 4096 :=
  ⟨calm_accepts, by decide, by decide, Nat.le_of_eq List.length_replicate⟩

/-- A RESET of one byte, a STATION_SET of 12 bytes, and one of 15 whose count says one exposure, do not fit; a count of 0 in one of 19 does. -/
theorem test_hyp_UnknownKindIsAnswered_length :
    ¬ LengthFits 0x02 [0] ∧ ¬ LengthFits 0x15 (List.replicate 12 0) ∧
    ¬ LengthFits 0x15 ([0, 0, 0, 0, 0, 0, 1] ++ List.replicate 8 0) ∧ LengthFits 0x15 (List.replicate 19 0) ∧
    LengthFits 0x1C [] ∧ 7 + 4 * [((0 : BitVec 24), (0 : Byte))].length ≤ 4096 ∧
    (2 : Byte).toNat ≠ [((0 : BitVec 24), (0 : Byte))].length := by
  simp [LengthFits, commandLengths]

theorem test_hyp_RefusedCommandsChangeNothing :
    (runHost (.profileGet 4) calm).reply = some (.range, []) ∧ Status.range ≠ .ok := by decide +kernel

theorem test_hyp_EventQueueTakesSelectedChanges :
    ((withLane calm).evr.setting .mirrorCoarse).selects true = false ∧
    ((withLane calm).evr.setting .mirrorFine).selects true = true ∧ (withLane calm).evr.queue.length < 16 ∧
    (withLane calm).oba.lane ≠ none ∧
    (full.evr.setting .mirrorFine).selects true = true ∧ 16 ≤ full.evr.queue.length ∧
    (calm.evr.setting .mirrorFine).selects true = true ∧ calm.phase = .running ∧ calm.oba.lane = none ∧
    (∀ x, calm.items x = 0) :=
  ⟨by decide +kernel, by decide +kernel, by decide +kernel, by decide +kernel, by decide +kernel, by decide +kernel,
    by decide +kernel, rfl, rfl, fun x => by cases x <;> rfl⟩

theorem test_hyp_FrameEndBeginsTheNextFrame :
    (withLane calm).phase = .running ∧ (withLane calm).oba.lane = some sending ∧ sending.endTick = (withLane calm).now ∧
    sending.item = .reply ∧ (withLane calm).lnk.holding = none ∧ (∀ y, (withLane calm).items y = 0) ∧
    ((withLane calm).setLnk { calm.lnk with replies := [⟨0x81, 1, []⟩] }).lnk.replies = ⟨0x81, 1, []⟩ :: [] :=
  ⟨rfl, rfl, rfl, rfl, rfl, fun y => by cases y <;> decide, rfl⟩

/-- The end of a photo run as it waits. -/
def tileRunEnd : RunEnd :=
  { result := .complete, endCause := .none, stations := 1, done := 1, missed := 0, exposures := 1, discarded := false, tick := 0 }

/-- A lane that ends with one item in a source, no reply waiting. -/
def chosenNow (lines : List LineItem) (tiles : List TileItem) : State :=
  ((withLane calm).setLas { calm.las with source := lines }).setPhu { calm.phu with source := tiles }

theorem test_hyp_FrameEndBeginsTheNextFrame_sources :
    ((withLane calm).setEvr { calm.evr with queue := [⟨.storeDone 1 [], 0⟩] }).chosen = some .event ∧
    (chosenNow [.slot 7] []).chosen = some .line ∧ (chosenNow [.sweepEnd Scu.reset.report] []).chosen = some .line ∧
    (chosenNow [] [.frame 1]).chosen = some .tile ∧ (chosenNow [] [.runEnd tileRunEnd]).chosen = some .tile ∧
    (chosenNow [] [.stationDone { station := 3, missed := true, serials := [], tick := 0 }]).chosen = some .tile := by
  decide +kernel

/-- A line of two chunks. -/
def twoChunks : LineSlot :=
  { LineSlot.free with state := .draining, points := List.replicate 500 ⟨0, 0, 0, []⟩ }

/-- A frame slot with its frames sent, the run waiting for a slot with both taken. -/
def slotAwaited (sent : Nat) : State :=
  let s := (withRun .waitFrame calm).setFrame 1 { FrameSlot.free with state := .ready }
  s.setFrame 0 { FrameSlot.free with state := .draining, framesSent := sent }

theorem test_hyp_FrameEndBeginsTheNextFrame_parts :
    (ending (.lineChunk 0) calm).lnk.replies = ⟨0x81, 1, []⟩ :: [] ∧ (ending (.lineChunk 0) calm).lnk.holding = none ∧
    twoChunks.chunksSent + 1 < twoChunks.chunks.length ∧ LineSlot.free.chunks.length ≤ LineSlot.free.chunksSent + 1 ∧
    twoChunks.state ≠ .free ∧ (slotAwaited 1535).phu.slots[(0 : Fin 2)].framesSent < 1536 ∧
    (slotAwaited 1536).phu.slots[(0 : Fin 2)].framesSent = 1536 ∧ calm.phu.state ≠ .waitFrame ∧
    (slotAwaited 1536).phu.current = some 3 ∧ (slotAwaited 1536).phu.state = .waitFrame ∧
    (slotAwaited 1536).phu.freeFrame = none ∧
    (slotAwaited 1536).phu.stations[(3 : Fin 32)].exposures[(slotAwaited 1536).phu.exposure]? = some ⟨10, 0⟩ := by
  decide +kernel

/-- A reply leaves while a command waits. -/
theorem test_hyp_FrameEndBeginsTheNextFrame_held :
    let s := (ending .reply calm).setLnk { calm.lnk with replies := [⟨0x81, 1, []⟩], holding := some ⟨1, 1, [0]⟩ }
    s.lnk.replies = ⟨0x81, 1, []⟩ :: [] ∧ s.lnk.holding = some ⟨1, 1, [0]⟩ := by decide +kernel

theorem test_hyp_ChunksHoldWholePointsGreedily :
    ∀ p ∈ [Point.mk 0 0 0 [⟨1, 1⟩, ⟨2, 2⟩, ⟨3, 3⟩, ⟨4, 4⟩], Point.mk 1 0 0 []], p.echoes.length ≤ 4 := by decide

/-- A well-formed gap list of one entry. -/
def oneGap : GapList := { entries := [⟨100, 50⟩], reference := 0, overflow := false, lastChanger := 1 }

theorem test_hyp_GapSubtractionIsExact :
    oneGap.covers 100 = true ∧ ¬ (101 ≤ 100 ∧ 100 < 101 + 10) ∧ (oneGap.subtract 2 101 10).covers 149 = true ∧
    oneGap.wf = true ∧ oneGap.entries.length < 16 ∧ oneGap.covers 149 = true := by decide

theorem test_hyp_GapAdditionCovers :
    full.scu.gaps.wf = true ∧ (∀ e ∈ full.scu.gaps.entries, e.stop ≤ 1048575) ∧ 1 ≤ 1 ∧ 1048575 + 1 ≤ headTurn ∧
    full.scu.gaps.entries.length = 16 ∧ full.scu.gaps.covers 30 = true := by decide +kernel

/-! ### Hypotheses that are met: calibration, stations, subscriptions, levels -/

theorem test_hyp_ReadingCommandsAnswer :
    Accepts calm ∧ calm.cal.working.banks[(3 : Byte).toNat]? = some Profile.default ∧
    pageBytes calm.cal.working (3 : Byte).toNat = some [0, 0, 0, 0] ∧
    calm.phu.stations[(31 : Byte).toNat]? = some Station.empty := ⟨calm_accepts, by decide +kernel⟩

/-- A profile at the edges of the window and the step. -/
def edgeProfile : Profile :=
  { speed := 0, pulses := .p512, windowStart := 512, windowEnd := 15871, azStep := 4096, echoMode := .all,
    keepEmpty := true }

theorem test_hyp_ProfileSetReplacesTheBank :
    Accepts calm ∧ calm.cal.state ≠ .writing ∧ 512 ≤ edgeProfile.windowStart ∧
    edgeProfile.windowStart ≤ edgeProfile.windowEnd ∧ edgeProfile.windowEnd ≤ 15871 ∧ 1 ≤ edgeProfile.azStep ∧
    edgeProfile.azStep ≤ 4096 ∧
    edgeProfile.pulses.toNat ≤ edgeProfile.windowEnd + 1 - edgeProfile.windowStart ∧
    edgeProfile.pulses.toNat * doubleRevs edgeProfile.speed * 16384
      ≤ 2000000 * (edgeProfile.windowEnd + 1 - edgeProfile.windowStart) := ⟨calm_accepts, by decide +kernel⟩

/-- The store WRITING. -/
def writing : State := calm.setCal { calm.cal with state := .writing, page := some 1, pageWriteEnd := some 0, commitMask := 2 }

theorem test_hyp_ProfileSetRefusesInOrder :
    Accepts calm ∧ (3 : Byte).toNat = (3 : Fin 4).val ∧ (512 : Half).toNat ≤ (8703 : Half).toNat ∧
    2000000 * ((8703 : Half).toNat + 1 - (512 : Half).toNat) < (8192 : Half).toNat * doubleRevs 3 * 16384 ∧
    Accepts writing ∧ (3 : Byte).toNat < 4 ∧ profileOf 2 4096 1366 15018 128 3 0 ≠ none ∧ writing.cal.state = .writing :=
  ⟨calm_accepts, rfl, by decide, by decide, accepts_like calm_accepts rfl rfl, by decide, by decide +kernel, rfl⟩

theorem test_hyp_CalSetReplacesOneValue :
    Accepts calm ∧ calValueAt calm.cal.working (3 : Byte).toNat (1 : Byte).toNat = some ⟨0, -512, 512⟩ ∧
    (-512 : Int) ≤ (0xFE00 : Half).toInt ∧ (0xFE00 : Half).toInt ≤ 512 ∧ calm.scu.state = .idle ∧
    calm.phu.state = .idle ∧ calm.cal.state ≠ .writing :=
  ⟨calm_accepts, rfl, by decide, by decide, rfl, rfl, by decide⟩

theorem test_hyp_CalRevertLoadsTheSelectedPages :
    Accepts calm ∧ 1 ≤ (31 : Byte).toNat ∧ (31 : Byte).toNat ≤ 31 ∧ 1 ≤ (2 : Byte).toNat ∧ (2 : Byte).toNat ≤ 31 ∧
    PageMask.has ((31 : Byte).setWidth 5) 0 = true ∧ PageMask.has ((2 : Byte).setWidth 5) 0 = false ∧
    calm.scu.state = .idle ∧ calm.phu.state = .idle ∧ calm.cal.state ≠ .writing := ⟨calm_accepts, by decide +kernel⟩

theorem test_hyp_CalCommitBeginsTheLowestPage :
    Accepts calm ∧ 1 ≤ (24 : Byte).toNat ∧ (24 : Byte).toNat ≤ 31 ∧ calm.cal.state ≠ .writing ∧
    PageMask.has ((24 : Byte).setWidth 5) 3 = true ∧
    (∀ q : Fin 5, q < 3 → PageMask.has ((24 : Byte).setWidth 5) q = false) := ⟨calm_accepts, by decide +kernel⟩

/-- Page 1 being written, page 4 to follow. -/
def writingTwo : State := writing.setCal { writing.cal with commitMask := 18 }

theorem test_hyp_PageWriteEndGoesOn :
    writing.phase = .running ∧ writing.cal.page = some 1 ∧ writing.cal.pageWriteEnd = some writing.now ∧
    writing.cal.commitMask.above 1 = [] ∧ writingTwo.phase = .running ∧ writingTwo.cal.page = some 1 ∧
    writingTwo.cal.pageWriteEnd = some writingTwo.now ∧ writingTwo.cal.commitMask.above 1 = 4 :: [] := by decide +kernel

theorem test_hyp_StationSetPlansTheStation :
    Accepts calm ∧ calm.phu.state = .idle ∧ 1 ≤ [Exposure.mk 10 0, ⟨500000, 7⟩, ⟨10, 7⟩].length ∧
    [Exposure.mk 10 0, ⟨500000, 7⟩, ⟨10, 7⟩].length ≤ 3 ∧
    (∀ e ∈ [Exposure.mk 10 0, ⟨500000, 7⟩, ⟨10, 7⟩], 10 ≤ e.time ∧ e.time ≤ 500000 ∧ e.gain ≤ 7) :=
  ⟨calm_accepts, by decide +kernel⟩

theorem running_run_accepts (st : RunState) : Accepts (withRun st calm) := accepts_like calm_accepts rfl rfl

theorem test_hyp_StationClearEmptiesTheEntry :
    Accepts calm ∧ 32 ≤ (32 : Byte).toNat ∧ Accepts (withRun .exposing calm) ∧ (31 : Byte).toNat < 32 ∧
    (withRun .exposing calm).phu.state ≠ .idle ∧ (31 : Byte).toNat = (31 : Fin 32).val ∧ calm.phu.state = .idle ∧
    calm.phu.stations[(31 : Fin 32)] = Station.empty :=
  ⟨calm_accepts, by decide, running_run_accepts _, by decide, nofun, rfl, rfl, by decide +kernel⟩

theorem test_hyp_SubscribeSetsTheEdge : Accepts calm ∧ Condition.mirrorCoarse ≠ .framesFull := ⟨calm_accepts, by decide⟩

theorem test_hyp_PrioritySetSetsTheLevel :
    Accepts calm ∧ ((0 : Byte) = 0 ∨ 3 < (0 : Byte).toNat ∨ 2 < (0 : Byte).toNat) ∧ 3 < (4 : Byte).toNat ∧
    2 < (3 : Byte).toNat ∧ (2 : Byte).toNat = (2 : Fin 3).val ∧ Accepts (withLane calm) ∧
    (withLane calm).oba.lane = some sending :=
  ⟨calm_accepts, by decide, by decide, by decide, rfl, accepts_like calm_accepts rfl rfl, rfl⟩

/-! ### Hypotheses that are met: laser, head, mirror -/

theorem test_hyp_EmitRequestIssuesALease :
    Accepts dim ∧ dim.lec.state = .off ∧ 1 ≤ (1 : Byte).toNat ∧ (1 : Byte).toNat ≤ 60 ∧ (60 : Byte).toNat ≤ 60 ∧
    (0 : Byte).toNat < 1 ∧ 60 < (61 : Byte).toNat ∧ Accepts lit ∧ lit.lec.state = .leased ∧ Accepts calm ∧
    calm.lec.state = .lockedOut :=
  ⟨dim_accepts, rfl, by decide, by decide, by decide, by decide, by decide, lit_accepts, rfl, calm_accepts, rfl⟩

theorem test_hyp_EmitRenewReplacesTheToken :
    Accepts lit ∧ lit.lec.state = .leased ∧ 1 ≤ (60 : Byte).toNat ∧ (60 : Byte).toNat ≤ 60 ∧
    lit.lec.token = some 7 ∧ lit.lec.token ≠ some 6 ∧ (0 : Byte).toNat < 1 ∧ 60 < (61 : Byte).toNat ∧ Accepts calm ∧
    calm.lec.state ≠ .leased ∧ LaserSafe lit :=
  ⟨lit_accepts, by decide +kernel, by decide, by decide, by decide +kernel, by decide +kernel,
    by decide, by decide, calm_accepts, nofun, lit_safe⟩

theorem test_hyp_EmitOffEndsTheLease :
    Accepts lit ∧ lit.lec.state = .leased ∧ lit.scu.state = .idle ∧ Accepts dim ∧ dim.lec.state = .off ∧
    Accepts calm ∧ calm.lec.state = .lockedOut ∧ ¬ lit.interruptible ∧ Accepts (withSweep .scanning lit) ∧
    (withSweep .scanning lit).lec.state = .leased ∧ (withSweep .scanning lit).interruptible :=
  ⟨lit_accepts, rfl, rfl, dim_accepts, rfl, calm_accepts, rfl, fun h => h.1 rfl, accepts_like lit_accepts rfl rfl, rfl,
    withSweep_interruptible _⟩

/-- The cases of an interruption: no line, a FILLING line with an entry in the fire log, one with none. -/
theorem test_hyp_Interrupted :
    (withSweep .scanning lit).las.filling = none ∧
    (let s := withLog [entryAt0 1] (withLine .firing (withSweep .scanning lit));
      s.las.filling = some 0 ∧ .slot 0 ∉ s.las.source ∧ (∃ e ∈ s.rtu.fireLog, e.slot = 0) ∧ s.rtu.holding = none) ∧
    (let s := withLine .firing (withSweep .scanning lit);
      s.las.filling = some 0 ∧ .slot 0 ∉ s.las.source ∧ (∀ e ∈ s.rtu.fireLog, e.slot ≠ 0) ∧
      (∀ j : Fin 8, s.las.slots[j].state = .filling → j = 0) ∧ s.rtu.holding = none ∧
      (withLane s).oba.lane ≠ none ∧ s.las.sweepEnds < 8) := by decide +kernel

theorem test_hyp_InterlockAndExpiryEndTheLease :
    lit.active = true ∧ lit.lec.satisfied = lit.interlockHolds ∧ lit.lec.state = .leased ∧ lit.lec.satisfied = true ∧
    (withMirror .coarse calm).lec.satisfied = (withMirror .coarse calm).interlockHolds ∧
    (withMirror .coarse calm).lec.state = .lockedOut ∧ (withMirror .coarse calm).lec.satisfied = false ∧
    (withMirror .coarse calm).mdu.state.coarseLock = true ∧
    (atTick 9 lit).lec.expiry = some (atTick 9 lit).now ∧ (atTick 9 lit).scu.state = .idle ∧
    dim.lec.state = .off ∧ dim.lec.satisfied = true ∧ dim.lec.satisfied = dim.interlockHolds ∧
    (withSweep .scanning lit).lec.satisfied = (withSweep .scanning lit).interlockHolds := by decide +kernel

/-- The driver fault inputs asserted. -/
def faulted (s : State) : State := s.setPins { s.pins with mirrorFault := true, headFault := true }

theorem test_hyp_HeadSlewBegins :
    Accepts calm ∧ calm.hdu.owner = .none ∧ calm.hdu.state ≠ .fault ∧
    (calm.hdu.state ≠ .unpowered ∨ calm.pins.headFault = false) ∧ Accepts (faulted calm) ∧
    (faulted calm).hdu.state = .unpowered ∧ (faulted calm).pins.headFault = true ∧
    headDistance 8 calm.pins.headCount ≤ 8 ∧ ¬ headDistance 9 calm.pins.headCount ≤ 8 :=
  ⟨calm_accepts, rfl, by decide, .inr rfl, accepts_like calm_accepts rfl rfl, rfl, rfl, by decide, by decide⟩

theorem withHead_accepts (st : HeadState) : Accepts (withHead st calm) := accepts_like calm_accepts rfl rfl

theorem test_hyp_HeadHoldAndReleaseByState (st : HeadState) :
    Accepts (withHead st calm) ∧ (withHead st calm).hdu.owner = .none ∧ (withHead st calm).hdu.state = st :=
  ⟨withHead_accepts st, rfl, rfl⟩

theorem test_hyp_HeadHoldAndReleaseByState_owned :
    Accepts (calm.setHdu { calm.hdu with owner := .sweep }) ∧ (calm.setHdu { calm.hdu with owner := .sweep }).hdu.owner ≠ .none :=
  ⟨accepts_like calm_accepts rfl rfl, nofun⟩

/-- SETTLING with the settle timer and the slew timer ending now; unowned. -/
def settlingNow : State :=
  calm.setHdu { calm.hdu with state := .settling, settleTimer := some 0, slewTimer := some 0 }

theorem test_hyp_HeadMovesAndSettles :
    calm.active = true ∧ (withHead .slewing calm).hdu.state = .slewing ∧
    headDistance (withHead .slewing calm).hdu.target 1048568 ≤ 8 ∧ settlingNow.hdu.state = .settling ∧
    8 < headDistance settlingNow.hdu.target 1048567 ∧ settlingNow.hdu.settleTimer = some settlingNow.now ∧
    settlingNow.hdu.owner = .none := by decide +kernel

/-- SETTLING at its end under SWEEP, in PREPARING, the mirror FINE. -/
def preparedNow : State :=
  withSweep .preparing (withMirror .fine (settlingNow.setHdu { settlingNow.hdu with owner := .sweep }))

theorem test_hyp_HeadMovesAndSettles_sweep :
    preparedNow.active = true ∧ preparedNow.hdu.state = .settling ∧
    preparedNow.hdu.settleTimer = some preparedNow.now ∧ preparedNow.hdu.owner = .sweep ∧
    preparedNow.scu.state = .preparing ∧ preparedNow.mdu.state = .fine := by decide +kernel

/-- SWEEPING from count 0 at tick 0, the reference standing still. -/
def sweepingNow : State := calm.setHdu { calm.hdu with state := .sweeping, referenceStart := some (0, 0) }

theorem test_hyp_HeadMovesAndSettles_rest :
    (withHead .settling calm).hdu.settleTimer = none ∧ headDistance (withHead .settling calm).hdu.target 8 ≤ 8 ∧
    settlingNow.hdu.settleTimer ≠ none ∧ (withHead .idle calm).hdu.state = .idle ∧
    8 < headDistance (withHead .slewing calm).hdu.target 9 ∧ (withHead .slewing calm).las.filling = none ∧
    (withHead .slewing calm).mdu.state ≠ .parking ∧ (withHead .slewing calm).mdu.state ≠ .parked ∧
    sweepingNow.hdu.referenceStart = some (0, 0) ∧ sweepingNow.hdu.state = .sweeping ∧
    (followingExact (0, 0) sweepingNow.hdu.rate 256 sweepingNow.now).natAbs ≤ 256 * 80000000 := by decide +kernel

/-- The owned heads of a fault: SWEEP with a sweep to interrupt, SWEEP with its cause recorded, PHOTO. -/
theorem test_hyp_HeadFaultsByReason_owned :
    (let s := withSweep .scanning (sweepingNow.setHdu { sweepingNow.hdu with owner := .sweep });
      s.active = true ∧ s.hdu.state = .sweeping ∧ s.hdu.referenceStart = some (0, 0) ∧ s.hdu.owner = .sweep ∧
      s.interruptible) ∧
    (let s := settlingNow.setHdu { settlingNow.hdu with owner := .sweep };
      s.hdu.state = .settling ∧ s.hdu.slewTimer = some s.now ∧ s.hdu.owner = .sweep ∧ ¬ s.interruptible) ∧
    (let s := withRun .exposing (settlingNow.setHdu { settlingNow.hdu with owner := .photo });
      s.hdu.state = .settling ∧ s.hdu.slewTimer = some s.now ∧ s.hdu.owner = .photo ∧ s.phu.state ≠ .idle) :=
  ⟨⟨rfl, rfl, rfl, rfl, withSweep_interruptible _⟩, ⟨rfl, rfl, rfl, fun h => h.1 rfl⟩, ⟨rfl, rfl, rfl, nofun⟩⟩

theorem test_hyp_HeadFaultsByReason :
    settlingNow.active = true ∧ settlingNow.hdu.owner = .none ∧ settlingNow.hdu.state = .settling ∧
    settlingNow.hdu.slewTimer = some settlingNow.now ∧ sweepingNow.hdu.owner = .none ∧
    sweepingNow.hdu.state = .sweeping ∧ sweepingNow.hdu.referenceStart = some (0, 0) ∧
    256 * 80000000 < (followingExact (0, 0) sweepingNow.hdu.rate 257 sweepingNow.now).natAbs ∧
    ¬ 256 * 80000000 < (followingExact (0, 0) sweepingNow.hdu.rate 256 sweepingNow.now).natAbs ∧
    (withHead .idle calm).hdu.state = .idle ∧ (withHead .idle calm).pins.headFault = false ∧
    (withLane settlingNow).oba.lane ≠ none ∧ (withLane settlingNow).evr.queue.length < 16 := by decide +kernel

theorem withMirror_accepts (st : MirrorState) (s : State) (h : Accepts s) : Accepts (withMirror st s) :=
  accepts_like h rfl rfl

theorem test_hyp_MirrorSpinEntersSpinup :
    Accepts calm ∧ calm.mdu.owner = .none ∧ calm.mdu.state ≠ .stalled ∧ calm.mdu.state.spinning = false ∧
    calm.pins.mirrorFault = false ∧ Accepts (withMirror .fine calm) ∧
    (withMirror .fine calm).mdu.state.spinning = true ∧ (3 : Fin 4) ≠ (withMirror .fine calm).mdu.setSpeed ∧
    (withMirror .fine calm).mdu.state ≠ .stopped ∧ (2 : Fin 4) = (withMirror .fine calm).mdu.setSpeed :=
  ⟨calm_accepts, rfl, nofun, rfl, rfl, withMirror_accepts _ _ calm_accepts, rfl, by decide, nofun, rfl⟩

/-- The mirror owned by a sweep. -/
def mirrorOwned : State := calm.setMdu { calm.mdu with owner := .sweep }

theorem test_hyp_MirrorSpinEntersSpinup_refusals :
    Accepts mirrorOwned ∧ mirrorOwned.mdu.owner ≠ .none ∧ 3 < (4 : Byte).toNat ∧ (3 : Byte).toNat ≤ 3 ∧
    16384 ≤ (16384 : Half).toNat ∧ (16383 : Half).toNat < 16384 ∧ Accepts (withMirror .stalled calm) ∧
    (withMirror .stalled calm).mdu.state = .stalled ∧ Accepts (faulted calm) ∧ (faulted calm).mdu.owner = .none ∧
    (faulted calm).mdu.state = .stopped ∧ (faulted calm).pins.mirrorFault = true :=
  ⟨accepts_like calm_accepts rfl rfl, nofun, by decide, by decide, by decide, by decide,
    withMirror_accepts _ _ calm_accepts, rfl, accepts_like calm_accepts rfl rfl, rfl, rfl, rfl⟩

theorem test_hyp_MirrorParkEntersParking (st : MirrorState) :
    Accepts (withMirror st calm) ∧ (withMirror st calm).mdu.owner = .none ∧ (withMirror st calm).mdu.state = st ∧
    (withMirror st calm).pins.mirrorFault = false ∧ Accepts (faulted calm) ∧ (faulted calm).mdu.state = .stopped ∧
    (faulted calm).mdu.owner = .none ∧ (faulted calm).pins.mirrorFault = true :=
  ⟨withMirror_accepts _ _ calm_accepts, rfl, rfl, rfl, accepts_like calm_accepts rfl rfl, rfl, rfl, rfl⟩

theorem test_hyp_MirrorStopClearsTheStall :
    Accepts lit ∧ lit.mdu.owner = .none ∧ Accepts (withMirror .stalled calm) ∧
    (withMirror .stalled calm).mdu.owner = .none ∧ (withMirror .stalled calm).mdu.state.coarseLock = false :=
  ⟨lit_accepts, rfl, withMirror_accepts _ _ calm_accepts, rfl, rfl⟩

/-- Every timer of the mirror ending now. -/
def mirrorTimers (st : MirrorState) : State :=
  withMirror st (calm.setMdu { calm.mdu with
    spinupTimer := some 0, watchdog := some 0, parkTimer := some 0, parkSettle := some 0, parkExcursion := some 0 })

theorem test_hyp_MirrorStallsByReason :
    (mirrorTimers .spinup).active = true ∧ (mirrorTimers .spinup).mdu.owner = .none ∧
    (mirrorTimers .spinup).mdu.spinupTimer = some (mirrorTimers .spinup).now ∧
    (mirrorTimers .coarse).mdu.watchdog = some (mirrorTimers .coarse).now ∧
    (mirrorTimers .parking).mdu.parkTimer = some (mirrorTimers .parking).now ∧
    (mirrorTimers .parked).mdu.parkExcursion = some (mirrorTimers .parked).now ∧
    (mirrorTimers .parked).mdu.state.driven = true ∧ (mirrorTimers .parked).pins.mirrorFault = false := by
  decide +kernel

/-- A stalling mirror that carries a lease and a sweep, and one that a photo run owns. -/
theorem test_hyp_MirrorStallsByReason_carried :
    (let s := withSweep .scanning ((mirrorTimers .fine).setLec leaseRec);
      s.active = true ∧ s.mdu.state = .fine ∧ s.mdu.watchdog = some s.now ∧ s.mdu.state.coarseLock = true ∧
      s.lec.satisfied = true ∧ s.lec.state = .leased ∧ s.interruptible) ∧
    (let s := withRun .exposing (withMirror .parked ((mirrorTimers .parked).setMdu
        { (mirrorTimers .parked).mdu with owner := .photo }));
      s.mdu.state = .parked ∧ s.mdu.parkExcursion = some s.now ∧ s.mdu.owner = .photo ∧ s.phu.state ≠ .idle) ∧
    lit.mdu.state.coarseLock = true ∧ lit.lec.satisfied = true ∧ lit.lec.state = .leased :=
  ⟨⟨rfl, rfl, rfl, rfl, rfl, rfl, withSweep_interruptible _⟩, ⟨rfl, rfl, rfl, nofun⟩, rfl, rfl, rfl⟩

theorem test_hyp_MirrorParksAndIsWatched :
    (withMirror .parking calm).active = true ∧ (withMirror .parking calm).mdu.state = .parking ∧
    parkDistance (withMirror .parking calm).mdu.parkTarget 2 ≤ 2 ∧ (withMirror .parking calm).mdu.parkSettle = none ∧
    2 < parkDistance (withMirror .parking calm).mdu.parkTarget 3 ∧ (withMirror .parked calm).mdu.state = .parked ∧
    16 < parkDistance (withMirror .parked calm).mdu.parkTarget 17 ∧ (withMirror .parked calm).mdu.parkExcursion = none ∧
    (mirrorTimers .parking).mdu.parkSettle = some (mirrorTimers .parking).now ∧
    (mirrorTimers .parking).mdu.owner = .none ∧ (mirrorTimers .parking).mdu.parkSettle ≠ none ∧
    parkDistance (withMirror .parked calm).mdu.parkTarget 16 ≤ 16 ∧ (mirrorTimers .parked).mdu.parkExcursion ≠ none ∧
    (mirrorTimers .parked).mdu.state = .parked := by decide +kernel

/-- A revolution measured from tick 0, the mirror in a state with its runs one short. -/
def measured (st : MirrorState) (n : Nat) : State :=
  atTick (BitVec.ofNat 48 n) (withMirror st (calm.setMdu { calm.mdu with
    measurementStart := some 0, coarseRun := 15, fineRun := 63 }))

theorem test_hyp_IndexPulseComparesThePeriod :
    (measured .spinup 808000).active = true ∧ (measured .spinup 808000).mdu.state.spinning = true ∧
    (measured .spinup 808000).mdu.measurementStart = some 0 ∧
    targetPeriod 2 < periodError (ticksFrom 0 (measured .spinup 808001).now) (targetPeriod 2) * 100 ∧
    periodError (ticksFrom 0 (measured .spinup 808000).now) (targetPeriod 2) * 100 ≤ targetPeriod 2 ∧
    targetPeriod 2 < periodError (ticksFrom 0 (measured .spinup 800401).now) (targetPeriod 2) * 2000 ∧
    (measured .spinup 808000).mdu.coarseRun = 15 ∧ (measured .coarse 800400).mdu.fineRun = 63 ∧
    periodError (ticksFrom 0 (measured .coarse 800400).now) (targetPeriod 2) * 2000 ≤ targetPeriod 2 ∧
    (measured .coarse 800400).mdu.switchMark = false := by decide +kernel

theorem test_hyp_IndexPulseComparesThePeriod_rest :
    (withMirror .spinup calm).mdu.measurementStart = none ∧ (withMirror .spinup calm).mdu.state = .spinup ∧
    (measured .fine 808001).mdu.state ≠ .spinup ∧ (measured .spinup 800400).scu.state = .idle ∧
    (measured .spinup 800400).las.filling = none ∧ (measured .spinup 800400).lec.satisfied = false ∧
    16 ≤ satInc 16 (measured .spinup 800400).mdu.coarseRun ∧ ¬ 16 ≤ satInc 16 (calm.mdu.coarseRun) ∧
    periodError (ticksFrom 0 (measured .spinup 800400).now) (targetPeriod 2) * 2000 ≤ targetPeriod 2 ∧
    (measured .fine 800401).mdu.state = .fine := by decide +kernel

/-- A head that is not SWEEPING keeps up. -/
theorem keepsUp_of_not_sweeping (s : State) (head : HeadCount) (h : s.hdu.state ≠ .sweeping) : s.keepsUp head :=
  fun _ hs => absurd hs h

/-! ### Hypotheses that are met: sweeps, pulses, points -/

/-- A request for one line of the default profile's width, the longest span and the largest count. -/
def request : SweepRequest :=
  { sweepId := 65535, kind := .full, profile := Profile.default, a0 := 1048575, length := 1048448 }

theorem test_hyp_SweepStartPrepares :
    Accepts lit ∧ lit.cal.working.banks[(3 : Fin 4)] = request.profile ∧ 1 ≤ request.sweepId.toNat ∧ 1 ≤ request.length ∧
    request.length + request.profile.azStep ≤ 1048576 ∧ lit.scu.state = .idle ∧ lit.phu.state = .idle ∧
    lit.hdu.owner = .none ∧ lit.mdu.owner = .none ∧ lit.hdu.state ≠ .fault ∧ lit.mdu.state = .fine ∧
    lit.mdu.setSpeed = request.profile.speed ∧ lit.lec.state = .leased ∧ lit.pins.headFault = false :=
  ⟨lit_accepts, by decide +kernel⟩

/-- LEASED, an unpowered head with its driver fault input asserted. -/
def litFaulted : State := lit.setPins { lit.pins with headFault := true }

theorem test_hyp_SweepStartPrepares_refusals :
    Accepts lit ∧ 1 < (2 : Byte).toNat ∧ 3 < (4 : Byte).toNat ∧ 1048576 ≤ (1048576 : BitVec 24).toNat ∧
    (3 : Byte).toNat = (3 : Fin 4).val ∧
    1048576 < (1048449 : BitVec 24).toNat + lit.cal.working.banks[(3 : Fin 4)].azStep ∧
    Accepts (withSweep .scanning lit) ∧ (withSweep .scanning lit).scu.state ≠ .idle ∧ Accepts dim ∧
    dim.cal.working.banks[(3 : Fin 4)] = request.profile ∧ dim.scu.state = .idle ∧ dim.phu.state = .idle ∧
    dim.hdu.owner = .none ∧ dim.mdu.owner = .none ∧ dim.hdu.state ≠ .fault ∧ dim.mdu.state = .coarse ∧
    dim.mdu.setSpeed = request.profile.speed ∧ dim.lec.state ≠ .leased ∧ Accepts litFaulted ∧
    litFaulted.hdu.state = .unpowered ∧ litFaulted.pins.headFault = true ∧ litFaulted.las.filling = none :=
  ⟨lit_accepts, by decide, by decide, by decide, by decide, by decide +kernel, accepts_like calm_accepts rfl rfl,
    nofun, dim_accepts, by decide +kernel, rfl, rfl, rfl, rfl, nofun, rfl, rfl, nofun, accepts_like calm_accepts rfl rfl,
    rfl, rfl, by decide +kernel⟩

/-- A sweep in PREPARING whose prepare timer ends now. -/
def preparingNow : State := calm.setScu { calm.scu with state := .preparing, prepareTimer := some 0, lines := 3 }

theorem test_hyp_SweepEndsByAbortAndPrepareTimeout :
    calm.las.filling = none ∧ Accepts calm ∧ calm.scu.state = .idle ∧ (withSweep .scanning calm).las.filling = none ∧
    Accepts (withSweep .scanning calm) ∧ (withSweep .scanning calm).scu.state = .scanning ∧
    (withSweep .scanning calm).scu.kind = .full ∧
    (withSweep .scanning calm).scu.k < (withSweep .scanning calm).scu.lines ∧ preparingNow.las.filling = none ∧
    preparingNow.active = true ∧ preparingNow.scu.state = .preparing ∧
    preparingNow.scu.prepareTimer = some preparingNow.now :=
  ⟨by decide +kernel, calm_accepts, rfl, by decide +kernel, accepts_like calm_accepts rfl rfl, by decide +kernel⟩

theorem test_hyp_SweepEndsByAbortAndPrepareTimeout_interruptible :
    (withSweep .scanning calm).interruptible ∧ preparingNow.interruptible ∧ Accepts (withSweep .closing calm) :=
  ⟨withSweep_interruptible _, ⟨nofun, nofun⟩, accepts_like calm_accepts rfl rfl⟩

/-- CLOSING with slot 0 FILLING in a fire mode and one entry in the fire log, at the end of a revolution within the fine
tolerance and of the entry's return timeout. -/
def closingNow (cause : SweepCause) (m : FireMode) : State :=
  let s := withLog [{ entryAt0 1 with tick := 792400 }] (withLine m (withSweep .closing (atTick 800400
    (lit.setMdu { lit.mdu with measurementStart := some 0 }))))
  s.setScu { s.scu with k := 3, endCause := cause }

theorem test_hyp_SweepEndsByAbortAndPrepareTimeout_closing :
    (closingNow .none .firing).active = true ∧ (closingNow .none .firing).scu.state = .closing ∧
    (closingNow .none .firing).las.filling = some 0 ∧
    (∀ j : Fin 8, (closingNow .none .firing).las.slots[j].state = .filling → j = 0) ∧
    (closingNow .none .firing).rtu.holding = none ∧ (closingNow .none .firing).pfm = none ∧
    LineItem.slot 0 ∉ (closingNow .none .firing).las.source ∧ (closingNow .none .firing).hdu.state ≠ .sweeping ∧
    (closingNow .none .firing).mdu.state.spinning = true ∧ (closingNow .none .firing).mdu.measurementStart = some 0 ∧
    (closingNow .none .firing).scu.endCause = .none ∧ (closingNow .none .firing).las.slots[(0 : Fin 8)].mode = .firing ∧
    (closingNow .hostAbort .stopped).scu.endCause ≠ .none ∧
    (closingNow .hostAbort .stopped).las.slots[(0 : Fin 8)].mode = .stopped ∧
    (closingNow .hostAbort .stopped).rtu.fireLog = [{ entryAt0 1 with tick := 792400 }] ∧
    ticksAfter 792400 8000 = (closingNow .hostAbort .stopped).now := by decide +kernel

/-- SCANNING and LEASED at the end of a revolution within the fine tolerance, line 1 of 3 to be decided. -/
def lineNow (st : MirrorState) : State :=
  withSweep .scanning ((atTick 800400 (lit.setMdu { lit.mdu with state := st, measurementStart := some 0 })).setLec leaseRec)

/-- The same with the slot at the ring position taken. -/
def lineNowFull : State := (lineNow .fine).setSlot 0 { LineSlot.free with state := .draining }

theorem test_hyp_IndexPulseDecidesTheLine :
    (lineNow .fine).active = true ∧ (lineNow .fine).scu.state = .scanning ∧ (lineNow .fine).lec.state = .leased ∧
    (lineNow .fine).las.filling = none ∧ (lineNow .fine).scu.k + 1 < (lineNow .fine).scu.lines ∧
    (lineNow .fine).mdu.measurementStart = some 0 ∧ (lineNow .fine).mdu.switchMark = false ∧
    periodError (ticksFrom 0 (lineNow .fine).now) (targetPeriod (lineNow .fine).mdu.setSpeed) * 2000
      ≤ targetPeriod (lineNow .fine).mdu.setSpeed ∧
    (lineNow .fine).las.slots[(lineNow .fine).las.position].state = .free ∧
    LineItem.slot (lineNow .fine).las.position ∉ (lineNow .fine).las.source ∧
    lineNowFull.las.slots[lineNowFull.las.position].state ≠ .free ∧ lineNowFull.las.filling = none ∧
    (lineNow .coarse).mdu.state = .coarse ∧ (lineNow .coarse).mdu.fineRun < 63 := by decide +kernel

/-- Line 2 of 3 to be decided. -/
def lastLineNow : State := (lineNow .fine).setScu { (lineNow .fine).scu with k := 2 }

/-- In RUNUP over the start azimuth 0. -/
def runupNow : State := (lineNow .fine).setScu { (lineNow .fine).scu with state := .runup, k := 0 }

/-- In PREPARING, the head in a state, the mirror one fine match short of FINE, at the end of a revolution. -/
def fineNow (st : HeadState) : State :=
  withHead st ((lineNow .coarse).setScu { (lineNow .coarse).scu with state := .preparing } |>.setMdu
    { (lineNow .coarse).mdu with fineRun := 63 })

theorem test_hyp_IndexPulseDecidesTheLine_prepared :
    (fineNow .idle).active = true ∧ (fineNow .idle).las.filling = none ∧ (fineNow .idle).scu.state = .preparing ∧
    (fineNow .idle).lec.state = .leased ∧ (fineNow .idle).mdu.measurementStart = some 0 ∧
    (fineNow .idle).mdu.switchMark = false ∧ (fineNow .idle).mdu.state = .coarse ∧ (fineNow .idle).mdu.fineRun = 63 ∧
    (fineNow .idle).hdu.state = .idle ∧ (fineNow .slewing).hdu.state ≠ .idle ∧ (lineNow .coarse).mdu.fineRun < 63 ∧
    periodError (ticksFrom 0 (fineNow .idle).now) (targetPeriod (fineNow .idle).mdu.setSpeed) * 2000
      ≤ targetPeriod (fineNow .idle).mdu.setSpeed ∧
    periodError (ticksFrom 0 (fineNow .idle).now) (targetPeriod (fineNow .idle).mdu.setSpeed) * 100
      ≤ targetPeriod (fineNow .idle).mdu.setSpeed := by decide +kernel

theorem test_hyp_IndexPulseDecidesTheLine_ends :
    lastLineNow.scu.k + 1 = lastLineNow.scu.lines ∧ lastLineNow.scu.endCause = .none ∧ lastLineNow.mdu.state = .fine ∧
    lastLineNow.las.slots[lastLineNow.las.position].state = .free ∧
    ((lastLineNow.setSlot 0 { LineSlot.free with state := .draining }).las.slots[(0 : Fin 8)]).state ≠ .free ∧
    runupNow.las.filling = none ∧ runupNow.scu.state = .runup ∧ 524288 ≤ ((524288 : HeadCount) - runupNow.scu.a0).toNat ∧
    ((524287 : HeadCount) - runupNow.scu.a0).toNat < 524288 ∧ runupNow.scu.k + 1 < runupNow.scu.lines ∧
    (lineNow .fine).hdu.state ≠ .sweeping := by decide +kernel

/-- Slot 0 FILLING with an entry in the fire log, the ring position at slot 1, line 1 of 3 to be decided at a tick. -/
def sealNow (n : Tick) : State :=
  let s := withLog [entryAt0 1] (withLine .firing (atTick n (lineNow .fine)))
  s.setLas { s.las with position := 1 }

/-- The lane of these states is idle and nothing waits. -/
theorem test_hyp_IndexPulseDecidesTheLine_fed :
    LaneFed (lineNow .fine) ∧ LaneFed lineNowFull ∧ LaneFed lastLineNow ∧ LaneFed runupNow ∧ LaneFed (fineNow .idle) ∧
    LaneFed (sealNow 800400) :=
  ⟨fun _ _ x => by cases x <;> rfl, fun _ _ x => by cases x <;> rfl, fun _ _ x => by cases x <;> rfl,
    fun _ _ x => by cases x <;> rfl, fun _ _ x => by cases x <;> rfl, fun _ _ x => by cases x <;> rfl⟩

theorem test_hyp_IndexPulseDecidesTheLine_seal :
    (sealNow 800400).las.filling = some 0 ∧ (sealNow 800400).las.slots[(0 : Fin 8)].mode = .firing ∧
    (∀ j : Fin 8, (sealNow 800400).las.slots[j].state = .filling → j = 0) ∧
    LineItem.slot 0 ∉ (sealNow 800400).las.source ∧ LineItem.slot 1 ∉ (sealNow 800400).las.source ∧
    (sealNow 800400).rtu.holding = none ∧ (sealNow 800400).pfm = none ∧ (sealNow 800400).scu.state = .scanning ∧
    (sealNow 800400).mdu.state = .fine ∧ (sealNow 800400).scu.k + 1 < (sealNow 800400).scu.lines ∧
    (sealNow 800400).las.slots[(sealNow 800400).las.position].state = .free ∧
    (sealNow 800400).hdu.state ≠ .sweeping ∧ (sealNow 800400).mdu.switchMark = false ∧
    periodError (ticksFrom 0 (sealNow 800401).now) (targetPeriod (sealNow 800401).mdu.setSpeed) * 100
      ≤ targetPeriod (sealNow 800401).mdu.setSpeed ∧
    targetPeriod (sealNow 800401).mdu.setSpeed
      < periodError (ticksFrom 0 (sealNow 800401).now) (targetPeriod (sealNow 800401).mdu.setSpeed) * 2000 := by
  decide +kernel

/-- A FILLING line in FIRING under a lease, with the default profile. -/
def firingNow : State := withLine .firing (withSweep .scanning (lit.setHdu sweepingNow.hdu))

/-- The same with a full fire log. -/
def firingFull : State := withLog (List.replicate 32 (entryAt0 1)) firingNow

theorem test_hyp_FiringRuleByGateAndLog :
    firingNow.active = true ∧ firingNow.hdu.state = .sweeping ∧ firingNow.hdu.referenceStart = some (0, 0) ∧
    (followingExact (0, 0) firingNow.hdu.rate 256 firingNow.now).natAbs ≤ 256 * 80000000 ∧
    firingNow.mdu.state ≠ .parking ∧ firingNow.mdu.state ≠ .parked ∧ firingNow.las.filling = some 0 ∧
    (1365 : MirrorCount).toNat < firingNow.scu.profile.windowStart ∧
    firingNow.las.slots[(0 : Fin 8)].next + 2 ≤ firingNow.las.slots[(0 : Fin 8)].scheduled ∧
    (∀ k, k < 2 → firingNow.scu.profile.position k ≤ (1370 : MirrorCount).toNat) ∧
    (1370 : MirrorCount).toNat < firingNow.scu.profile.position 2 ∧
    firingNow.las.slots[(0 : Fin 8)].mode = .firing ∧
    firingNow.las.slots[(0 : Fin 8)].next < firingNow.las.slots[(0 : Fin 8)].scheduled ∧
    firingNow.scu.profile.windowStart + firingNow.las.slots[(0 : Fin 8)].next
      * (firingNow.scu.profile.windowEnd + 1 - firingNow.scu.profile.windowStart)
      / firingNow.scu.profile.pulses.toNat ≤ (1366 : MirrorCount).toNat ∧ firingNow.lec.state = .leased ∧
    firingNow.rtu.fireLog.length < 32 ∧ 32 ≤ firingFull.rtu.fireLog.length ∧
    (withLine .firing (withSweep .scanning dim)).lec.state ≠ .leased := by decide +kernel

/-- A good record for entry 509, and one whose check fails. -/
def record509 : WireRecord := { seqLow := 253, seqHigh := none, echoCount := 1, echoes := [echoA], checkAgrees := true }

/-- A FILLING line, echo mode ALL, with the entry of 509 at the head. -/
def waitingFor509 : State :=
  withLog [entryAt0 509] (calm.setSlot 0 { slotFilling .firing with echoMode := .all })

theorem test_hyp_ReturnRecordsByCase :
    calm.phase = .running ∧ calm.rtu.discardNext = false ∧ ({ record509 with checkAgrees := false }).checkAgrees = false ∧
    record509.checkAgrees = true ∧ record509.echoCount.toNat ≤ 4 ∧
    record509.echoes.length = record509.echoCount.toNat ∧ record509.seqLow ≠ 0 ∧ record509.seqHigh = none ∧
    (calm.setRtu { calm.rtu with holding := some ⟨1, none, []⟩ }).rtu.holding = some ⟨1, none, []⟩ ∧
    waitingFor509.rtu.discardNext = false ∧ waitingFor509.rtu.holding = none ∧ waitingFor509.pfm = none ∧
    waitingFor509.rtu.matcher = .matching ∧ waitingFor509.rtu.fireLog = entryAt0 509 :: [] ∧
    (entryAt0 509).seq.setWidth 8 = record509.seqLow ∧ waitingFor509.las.filling = some 0 ∧
    waitingFor509.las.slots[(0 : Fin 8)].mode = .firing ∧
    waitingFor509.las.slots[(entryAt0 509).slot].echoMode = .all := by decide +kernel

/-- The same of the marked record of 512, the first with a low byte of 0 after 509. -/
theorem test_hyp_ReturnRecordsByCase_marked :
    ({ record509 with seqLow := 0, seqHigh := some 2 }).seqLow = 0 ∧
    ({ record509 with seqLow := 0, seqHigh := some 2 }).seqHigh ≠ none ∧
    (2 : Byte) ++ (0 : Byte) = (entryAt0 512).seq ∧ (entryAt0 512).seq.setWidth 8 = (0 : Byte) := by decide +kernel

/-- Two entries of one FILLING line, the matcher in a state. -/
def waitingForTwo (m : MatcherState) : State :=
  let s := withLog [entryAt0 511, entryAt0 512] (withLine .firing calm)
  s.setRtu { s.rtu with matcher := m }

theorem test_hyp_ReturnRecordsByCase_rest :
    (waitingForTwo .matching).rtu.fireLog = [entryAt0 511] ++ entryAt0 512 :: [] ∧
    (∀ p ∈ [entryAt0 511], p.slot = 0) ∧ (∀ p ∈ [entryAt0 511], p.seq.setWidth 8 ≠ (0 : Byte)) ∧
    (entryAt0 512).seq.setWidth 8 = (0 : Byte) ∧ (waitingForTwo .hunt).rtu.matcher = .hunt ∧
    ([entryAt0 511] ++ [entryAt0 512]).head? = some (entryAt0 511) ∧
    (((2 : Byte) ++ (0 : Byte) : Serial) - (entryAt0 511).seq).toNat = [entryAt0 511].length ∧
    (waitingForTwo .hunt).rtu.fireLog.length ≤ (((3 : Byte) ++ (0 : Byte) : Serial) - (entryAt0 511).seq).toNat ∧
    (((3 : Byte) ++ (0 : Byte) : Serial) - (entryAt0 511).seq).toNat < 32768 ∧
    32768 ≤ (((1 : Byte) ++ (0 : Byte) : Serial) - (entryAt0 511).seq).toNat ∧
    (waitingForTwo .hunt).rtu.fireLog.length ≤ 32768 ∧ (waitingForTwo .hunt).las.filling = some 0 ∧
    (waitingForTwo .hunt).las.slots[(0 : Fin 8)].mode = .firing := by decide +kernel

theorem test_hyp_ReturnRecordsByCase_stray :
    (∀ i : Fin 8, (waitingForTwo .matching).las.filling = some i →
      (waitingForTwo .matching).las.slots[i].mode = .firing) ∧
    (∀ p ∈ (waitingForTwo .matching).rtu.fireLog, p.seq.setWidth 8 ≠ (37 : Byte)) ∧
    (waitingForTwo .matching).rtu.fireLog.find? (fun p => p.seq.setWidth 8 == (0 : Byte)) = some (entryAt0 512) ∧
    (((3 : Byte) ++ (0 : Byte) : Serial)) ≠ (entryAt0 512).seq := by decide +kernel

/-- The Point Former at its end with a point of slot 0. -/
def formedNow (es : List RawEcho) : State :=
  waitingFor509.setPfm (some { entry := entryAt0 508, record := ⟨252, none, es⟩, doneAt := 0 })

theorem test_hyp_TimeoutsAndHandoversReachTheLine :
    (atTick 8000 waitingFor509).active = true ∧ (atTick 8000 waitingFor509).las.filling = some 0 ∧
    (atTick 8000 waitingFor509).las.slots[(0 : Fin 8)].mode = .firing ∧
    (atTick 8000 waitingFor509).rtu.holding = none ∧
    (atTick 8000 waitingFor509).rtu.fireLog = entryAt0 509 :: [] ∧ (entryAt0 509).slot = 0 ∧
    ticksAfter (entryAt0 509).tick 8000 = (atTick 8000 waitingFor509).now ∧
    (formedNow [echoA]).pfm = some { entry := entryAt0 508, record := ⟨252, none, [echoA]⟩, doneAt := 0 } ∧
    (formedNow [echoA]).now = 0 ∧ [echoA] ≠ [] ∧
    (formedNow []).pfm = some { entry := entryAt0 508, record := ⟨252, none, []⟩, doneAt := 0 } ∧
    (formedNow []).las.slots[(0 : Fin 8)].keepEmpty = false ∧
    (formedNow []).las.filling = some 0 ∧ (formedNow []).rtu.holding = none ∧
    ({ slotFilling .firing with keepEmpty := true }).keepEmpty = true := by decide +kernel

/-! ### Hypotheses that are met: photo runs, timebase, resets -/

/-- Stations 3 and 31 PLANNED. -/
def planned : State :=
  calm.setPhu ((calm.phu.setStation 3 ⟨.planned, 0, 0, [⟨10, 0⟩]⟩).setStation 31 ⟨.planned, 0, 0, [⟨10, 0⟩]⟩)

theorem planned_safe : LaserSafe planned :=
  ⟨by decide, by decide, nofun, fun _ => ⟨rfl, rfl⟩, by decide⟩

theorem test_hyp_PhotoRunStartPositions :
    Accepts planned ∧ LaserSafe planned ∧ planned.phu.planned = 3 :: [31] ∧ planned.scu.state = .idle ∧
    planned.phu.state = .idle ∧ planned.lec.state ≠ .leased ∧ planned.hdu.owner = .none ∧ planned.hdu.state ≠ .fault ∧
    planned.mdu.owner = .none ∧ planned.mdu.state ≠ .stalled ∧ planned.phu.runEndWaits = false ∧
    planned.pins.headFault = false ∧ planned.pins.mirrorFault = false :=
  ⟨accepts_like calm_accepts rfl rfl, planned_safe, by decide +kernel⟩

/-- The same with both driver fault inputs asserted. -/
def plannedFaulted : State := planned.setPins { planned.pins with headFault := true, mirrorFault := true }

theorem plannedFaulted_safe : LaserSafe plannedFaulted :=
  ⟨planned_safe.1, planned_safe.2, planned_safe.3, planned_safe.4, planned_safe.5⟩

theorem test_hyp_PhotoRunStartPositions_refusals :
    Accepts calm ∧ (∀ i : Fin 32, calm.phu.stations[i].state ≠ .planned) ∧ Accepts plannedFaulted ∧
    LaserSafe plannedFaulted ∧ plannedFaulted.phu.planned = 3 :: [31] ∧ plannedFaulted.hdu.state = .unpowered ∧
    plannedFaulted.mdu.state = .stopped :=
  ⟨calm_accepts, by decide +kernel, accepts_like calm_accepts rfl rfl, plannedFaulted_safe, by decide +kernel, rfl, rfl⟩

/-- A run in a state that owns head and mirror. -/
def owned (st : RunState) : State :=
  withRun st ((calm.setHdu { calm.hdu with owner := .photo }).setMdu { calm.mdu with owner := .photo })

theorem test_hyp_PhotoRunAbortEndsTheRun :
    Accepts (owned .exposing) ∧ (owned .exposing).phu.state ≠ .idle ∧ (owned .exposing).hdu.owner = .photo ∧
    (owned .exposing).mdu.owner = .photo ∧ (owned .exposing).phu.exposureHeld = some 0 ∧
    TileItem.frame 0 ∉ (owned .exposing).phu.source ∧ Accepts (owned .idle) ∧ (owned .idle).phu.state = .idle :=
  ⟨accepts_like calm_accepts rfl rfl, by decide +kernel, by decide +kernel, by decide +kernel, by decide +kernel,
    by decide +kernel, accepts_like calm_accepts rfl rfl, rfl⟩

/-- The middle or the end of a phase of an exposure of 10 µs in slot 0, now. -/
def phaseNow (st : RunState) : State :=
  withLane ((withRun st calm).setPhu { (withRun st calm).phu.setFrame 0 { FrameSlot.free with
      state := .exposing, time := 10, startTick := BitVec.ofNat 48 (2 ^ 48 - 200) } with
    phaseEnd := some 0, positioningEnd := some 0, exposure := 0 })

/-- The same with the other slot taken too. -/
def phaseNowFull : State :=
  (phaseNow .readout).setFrame 1 { FrameSlot.free with state := .draining }

theorem test_hyp_ExposuresGoTheirWay :
    (phaseNow .exposing).active = true ∧ (phaseNow .exposing).hdu.state ≠ .sweeping ∧
    (phaseNow .exposing).phu.state = .exposing ∧ (phaseNow .exposing).phu.slotInUse = some 0 ∧
    (phaseNow .exposing).phu.slots[(0 : Fin 2)].headAzimuth = none ∧
    ticksAfter (phaseNow .exposing).phu.slots[(0 : Fin 2)].startTick
      ((phaseNow .exposing).phu.slots[(0 : Fin 2)].time * 20) = (phaseNow .exposing).now ∧
    (phaseNow .exposing).phu.phaseEnd = some (phaseNow .exposing).now ∧ phaseNowFull.phu.state = .readout ∧
    phaseNowFull.phu.slotInUse = some 0 ∧ phaseNowFull.phu.phaseEnd = some phaseNowFull.now ∧
    phaseNowFull.oba.lane ≠ none ∧ phaseNowFull.phu.moreExposures = true ∧ phaseNowFull.phu.freeFrame = none ∧
    (phaseNow .positioning).phu.positioningEnd = some (phaseNow .positioning).now ∧
    (phaseNow .positioning).phu.current = some 3 ∧
    (phaseNow .positioning).phu.position + 1 = (phaseNow .positioning).phu.runList.length := by decide +kernel

/-- The head SETTLING and the mirror PARKING, each at its end, or the other already there; a photo run owns both. -/
def positionedNow (head : HeadState) (mirror : MirrorState) : State :=
  withRun .positioning ((settlingNow.setHdu { settlingNow.hdu with state := head, owner := .photo }).setMdu
    { calm.mdu with state := mirror, owner := .photo, parkSettle := some 0 })

theorem test_hyp_ExposuresGoTheirWay_positioned (head : HeadState) (mirror : MirrorState) :
    let s := positionedNow head mirror
    s.active = true ∧ s.phu.current = some 3 ∧
    s.phu.stations[(3 : Fin 32)].exposures[s.phu.exposure]? = some ⟨10, 0⟩ ∧ s.phu.state = .positioning ∧
    s.hdu.state = head ∧ s.hdu.settleTimer = some s.now ∧ s.hdu.owner = .photo ∧ s.mdu.state = mirror ∧
    s.mdu.parkSettle = some s.now ∧ s.mdu.owner = .photo ∧ s.phu.freeFrame = some 0 ∧
    TileItem.frame 0 ∉ s.phu.source := by
  refine ⟨rfl, ?_, ?_, rfl, rfl, rfl, rfl, rfl, rfl, rfl, ?_, ?_⟩ <;>
    (cases head <;> cases mirror <;> decide +kernel)

theorem test_hyp_ExposuresGoTheirWay_watched :
    let s := (phaseNow .exposing).setHdu { calm.hdu with state := .idle }
    let t := withMirror .parked s
    t.hdu.state = .idle ∧ t.mdu.state = .parked ∧ t.mdu.parkExcursion = none ∧ parkDistance t.mdu.parkTarget 16 ≤ 16 := by
  decide +kernel

/-- The readout of the station's last exposure ends in slot 0; the station is the last one, or the first of two. -/
def lastReadout (runList : List (Fin 32)) : State :=
  let s := withMirror .parked (withHead .idle ((phaseNow .readout).setFrame 0 { FrameSlot.free with state := .readout }))
  s.setPhu { s.phu with exposure := 1, runList := runList }

theorem test_hyp_ExposuresGoTheirWay_readout :
    (phaseNow .readout).phu.current = some 3 ∧
    (phaseNow .readout).phu.stations[(3 : Fin 32)].exposures[(phaseNow .readout).phu.exposure + 1]? = some ⟨500000, 7⟩ ∧
    (lastReadout [3]).phu.slots[(0 : Fin 2)].state = .readout ∧ (lastReadout [3]).oba.lane ≠ none ∧
    (lastReadout [3]).phu.slotInUse = some 0 ∧ (lastReadout [3]).phu.phaseEnd = some (lastReadout [3]).now ∧
    (lastReadout [3]).phu.current = some 3 ∧
    (lastReadout [3]).phu.stations[(3 : Fin 32)].exposures.length = (lastReadout [3]).phu.exposure + 1 ∧
    (lastReadout [3]).phu.position + 1 = (lastReadout [3]).phu.runList.length ∧
    (lastReadout [3, 4]).phu.runList[(lastReadout [3, 4]).phu.position + 1]? = some 4 ∧
    (lastReadout [3, 4]).hdu.state = .idle ∧ (lastReadout [3, 4]).mdu.state = .parked := by decide +kernel

theorem test_hyp_ImagesAreCanonical : calm.imagesWf ∧ step calm = .next (idle calm) :=
  ⟨fun i => by revert i; decide +kernel, rfl⟩

/-- The timebase with a source, the reference present or not. -/
def timebase (source : TimeSource) (present : Bool) (s : State) : State :=
  s.setTbu { s.tbu with source := source, referencePresent := present }

theorem timebase_accepts (source : TimeSource) (present : Bool) (s : State) (h : Accepts s) :
    Accepts (timebase source present s) := accepts_like h rfl rfl

theorem test_hyp_TimebaseRestoreSwitches (source : TimeSource) (present : Bool) :
    Accepts (timebase source present lit) ∧ (timebase source present lit).tbu.source = source ∧
    (timebase source present lit).tbu.referencePresent = present ∧ (timebase source present lit).mdu.state = .fine ∧
    Accepts (timebase source present dim) ∧ (timebase source present dim).mdu.state = .coarse :=
  ⟨timebase_accepts _ _ _ lit_accepts, rfl, rfl, rfl, timebase_accepts _ _ _ dim_accepts, rfl⟩

theorem test_hyp_ReferenceLossAndReturn :
    (timebase .fallback true calm).active = true ∧ (timebase .fallback true calm).tbu.referencePresent = true ∧
    (timebase .external true State.reset).phase = .loading ∧ (timebase .external true State.reset).active = true ∧
    (timebase .external true (withLine .firing lit)).phase = .running ∧
    (timebase .external true (withLine .firing lit)).las.filling = some 0 ∧
    (timebase .external true (withLine .firing lit)).mdu.state = .fine := by decide +kernel

theorem test_hyp_SoftResetWaitsThenProceeds :
    Accepts calm ∧ (calm.setPhase .resetWait).phase = .resetWait ∧ (calm.setPhase .resetWait).oba.lane = none ∧
    (calm.setPhase .resetWait).cal.page = none := ⟨calm_accepts, rfl, rfl, rfl⟩

/-- The reset wait, a frame on the lane and a page write that end now. -/
def waitingNow : State := (withLane (calm.setCal { calm.cal with
  state := .writing, commitMask := 19, page := some 1, pageWriteEnd := some 0 })).setPhase .resetWait

theorem test_hyp_SoftResetWaitsThenProceeds_wait :
    waitingNow.phase = .resetWait ∧ waitingNow.oba.lane = some sending ∧ sending.endTick = waitingNow.now ∧
    sending.item = .reply ∧ waitingNow.cal.page = some 1 ∧ waitingNow.cal.pageWriteEnd = some waitingNow.now :=
  ⟨rfl, rfl, rfl, rfl, rfl, rfl⟩

theorem test_hyp_PowerOnResetTakesEffectAtOnce : (calm.setPhase .held).phase = .held := rfl

theorem test_hyp_LoadingEndsWithReady : State.reset.phase = .loading := rfl

end Sys2Proof.Tests
end

section
/-! PROOFS. The rules of the slot update, of counts that arrive at a sweeping head, and of the firing rule (R47 to R51), each
said once; and the firing rule at the positions of one advance (R48). -/

namespace Sys2Proof.Machine

/-! ### A slot written -/

@[simp] theorem Las.setSlot_set (l : Las) (i : Fin 8) (x y : LineSlot) :
    (l.setSlot i x).setSlot i y = l.setSlot i y := by
  simp [Las.setSlot]

theorem Las.setSlot_self (l : Las) (i : Fin 8) : l.setSlot i l.slots[i] = l := by
  simp [Las.setSlot]

@[simp] theorem State.setSlot_set (s : State) (i : Fin 8) (x y : LineSlot) :
    (s.setSlot i x).setSlot i y = s.setSlot i y := by
  simp [State.setSlot]

theorem State.setSlot_self (s : State) (i : Fin 8) : s.setSlot i s.las.slots[i] = s := by
  rw [State.setSlot, Las.setSlot_self, State.setLas_self]

/-- A slot and the Return Unit are written in either order. -/
theorem State.setRtu_setSlot (s : State) (i : Fin 8) (x : LineSlot) (u : Rtu) :
    (s.setSlot i x).setRtu u = (s.setRtu u).setSlot i x := rfl

/-- The slot that `filling` names is FILLING (R26). -/
theorem Las.state_of_filling {l : Las} {i : Fin 8} (h : l.filling = some i) : l.slots[i].state = .filling := by
  simpa using List.find?_some h

/-- Writing a slot without a change of its state leaves the FILLING slot where it was. -/
theorem Las.filling_setSlot (l : Las) (i : Fin 8) (x : LineSlot) (h : x.state = l.slots[i].state) :
    (l.setSlot i x).filling = l.filling := by
  have same : ∀ j : Fin 8, (l.setSlot i x).slots[j].state = l.slots[j].state := by
    intro j
    by_cases hj : j = i
    · rw [hj, Las.setSlot_get, h]
    · rw [Las.setSlot_get_ne l x hj]
  simp only [Las.filling, same]

/-! ### Counts that arrive (R79, R80, R96) -/

/-- A mirror that is neither parking nor parked only moves (R79, R80). -/
theorem mirrorMoves_unparked (c : MirrorCount) (s : State) (h1 : s.mdu.state ≠ .parking) (h2 : s.mdu.state ≠ .parked) :
    mirrorMoves c s = s.setPins { s.pins with mirrorCount := c } := by
  cases hm : s.mdu.state <;> simp_all [mirrorMoves, readMirror]

/-- A sweeping head reads a count: the last following error follows it (R96). -/
theorem readHead_sweeping (c : HeadCount) (s : State) (start : HeadCount × Tick) (hs : s.hdu.state = .sweeping)
    (hr : s.hdu.referenceStart = some start) :
    readHead c s = (s.setPins { s.pins with headCount := c }).setHdu { s.hdu with
      lastFollowing := followingWhole (followingExact start s.hdu.rate c s.now) } := by
  simp [readHead, syncFollowing, State.followingNow, hs, hr, State.now_eq]

/-- A sweeping head within its limit goes on sweeping, and nobody is told anything (R96). -/
theorem headArrives_keepsUp (c : HeadCount) (s : State) (start : HeadCount × Tick) (hs : s.hdu.state = .sweeping)
    (hr : s.hdu.referenceStart = some start)
    (hf : (followingExact start s.hdu.rate c s.now).natAbs ≤ 256 * countUnit) :
    headArrives c s = (s.setPins { s.pins with headCount := c }).setHdu { s.hdu with
      lastFollowing := followingWhole (followingExact start s.hdu.rate c s.now) } := by
  have read := readHead_sweeping c s start hs hr
  have following : (readHead c s).followingNow = followingExact start s.hdu.rate c s.now := by
    simp [read, State.followingNow, hr, State.now_eq]
  have within : (readHead c s).followingExceeds = false := by
    rw [State.followingExceeds, following, decide_eq_false (Nat.not_lt.2 hf), Bool.and_false]
  have watched (t : Tick) : (readHead c s).hdu.watched c t = (readHead c s).hdu := by
    simp [read, Hdu.watched, hs]
  rw [headArrives, headMoves, within, if_neg Bool.false_ne_true, watched, State.setHdu_self, tellAll_nil, read]

/-- Both counts arrive at a mirror that is not parked and a sweeping head within its limit. -/
theorem countsArrive_keepsUp (mirror : MirrorCount) (head : HeadCount) (s : State) (start : HeadCount × Tick)
    (hs : s.hdu.state = .sweeping) (hr : s.hdu.referenceStart = some start)
    (hf : (followingExact start s.hdu.rate head s.now).natAbs ≤ 256 * countUnit)
    (h1 : s.mdu.state ≠ .parking) (h2 : s.mdu.state ≠ .parked) :
    countsArrive mirror head s = (s.setPins { s.pins with mirrorCount := mirror, headCount := head }).setHdu { s.hdu with
      lastFollowing := followingWhole (followingExact start s.hdu.rate head s.now) } := by
  rw [countsArrive, mirrorMoves_unparked mirror s h1 h2]
  exact headArrives_keepsUp head (s.setPins _) start hs hr hf

/-! ### The firing rule (R48 to R51) -/

/-- The line slot after `n` positions, `fires` of them fired and `skips` of them skipped (R31, R49). -/
def LineSlot.pulsesTaken (sl : LineSlot) (fires skips n : Nat) : LineSlot :=
  { sl with
    fired := Nat.repeat (satInc 8192) fires sl.fired
    skipped := Nat.repeat (satInc 8192) skips sl.skipped
    next := sl.next + n }

/-- The Return Unit after `n` fires at consecutive positions from `first` on (R49, R50, R51). -/
def Rtu.firesLogged (u : Rtu) (i : Fin 8) (first : Nat) (pins : Pins) (now : Tick) (n : Nat) : Rtu :=
  { u with
    strobe := if n = 0 then u.strobe else some (u.nextSeq + BitVec.ofNat 16 (n - 1))
    nextSeq := u.nextSeq + BitVec.ofNat 16 n
    fireLog := u.fireLog ++ (List.range n).map fun k =>
      { seq := u.nextSeq + BitVec.ofNat 16 k, slot := i, pulse := first + k, mirror := pins.mirrorCount,
        head := pins.headCount, tick := now } }

@[simp] theorem Rtu.firesLogged_zero (u : Rtu) (i : Fin 8) (first : Nat) (pins : Pins) (now : Tick) :
    u.firesLogged i first pins now 0 = u := by
  simp [Rtu.firesLogged]

@[simp] theorem Rtu.firesLogged_length (u : Rtu) (i : Fin 8) (first : Nat) (pins : Pins) (now : Tick) (n : Nat) :
    (u.firesLogged i first pins now n).fireLog.length = u.fireLog.length + n := by
  simp [Rtu.firesLogged]

/-- One fire more: its strobe, its entry, and the sequence after it. -/
theorem Rtu.firesLogged_succ (u : Rtu) (i : Fin 8) (first : Nat) (pins : Pins) (now : Tick) (n : Nat) :
    u.firesLogged i first pins now (n + 1) =
      { u.firesLogged i first pins now n with
        strobe := some (u.firesLogged i first pins now n).nextSeq
        fireLog := (u.firesLogged i first pins now n).fireLog ++
          [{ seq := (u.firesLogged i first pins now n).nextSeq, slot := i, pulse := first + n,
             mirror := pins.mirrorCount, head := pins.headCount, tick := now }]
        nextSeq := (u.firesLogged i first pins now n).nextSeq + 1 } := by
  simp [Rtu.firesLogged, List.range_succ, BitVec.ofNat_add, BitVec.add_assoc]

/-- The state after slot `i` took `n` positions at the counts that stand, `fires` of them fired and `skips` skipped. -/
def State.pulsesTaken (s : State) (i : Fin 8) (fires skips n : Nat) : State :=
  (s.setRtu (s.rtu.firesLogged i s.las.slots[i].next s.pins s.now fires)).setSlot i
    (s.las.slots[i].pulsesTaken fires skips n)

@[simp] theorem State.pulsesTaken_zero (s : State) (i : Fin 8) : s.pulsesTaken i 0 0 0 = s := by
  simp only [State.pulsesTaken, Rtu.firesLogged_zero, State.setRtu_self]
  exact s.setSlot_self i

theorem State.pulsesTaken_slot (s : State) (i : Fin 8) (fires skips n : Nat) :
    (s.pulsesTaken i fires skips n).las.slots[i] = s.las.slots[i].pulsesTaken fires skips n := by
  rw [State.pulsesTaken, State.setSlot_las, Las.setSlot_get]

@[simp] theorem State.pulsesTaken_gateOpen (s : State) (i : Fin 8) (fires skips n : Nat) :
    (s.pulsesTaken i fires skips n).gateOpen = s.gateOpen := rfl

@[simp] theorem State.pulsesTaken_room (s : State) (i : Fin 8) (fires skips n : Nat) :
    (s.pulsesTaken i fires skips n).rtu.fireLog.length = s.rtu.fireLog.length + fires :=
  Rtu.firesLogged_length ..

theorem firePulse_pulsesTaken (i : Fin 8) (s : State) (n : Nat) :
    firePulse i (s.pulsesTaken i n 0 n) = s.pulsesTaken i (n + 1) 0 (n + 1) := by
  rw [firePulse, State.pulsesTaken_slot]
  simp only [State.pulsesTaken, State.setRtu_setSlot, State.setSlot_set, Rtu.firesLogged_succ]
  rfl

theorem skipPulse_pulsesTaken (i : Fin 8) (s : State) (fires skips n : Nat) :
    skipPulse i (s.pulsesTaken i fires skips n) = s.pulsesTaken i fires (skips + 1) (n + 1) := by
  rw [skipPulse, State.pulsesTaken_slot]
  simp only [State.pulsesTaken, State.setSlot_set]
  rfl

theorem passPulse_pulsesTaken (i : Fin 8) (s : State) (n : Nat) :
    passPulse i (s.pulsesTaken i 0 0 n) = s.pulsesTaken i 0 0 (n + 1) := by
  rw [passPulse, State.pulsesTaken_slot]
  simp only [State.pulsesTaken, State.setSlot_set]
  rfl

/-- LEASED, with `n` positions taken: while the fire log has room they have all fired and so does the next; then the next is
skipped (R49, R51). -/
theorem firingRule_leased (i : Fin 8) (s : State) (hl : s.lec.state = .leased) (n : Nat) :
    firingRule i (s.pulsesTaken i (min n (32 - s.rtu.fireLog.length)) (n - min n (32 - s.rtu.fireLog.length)) n) =
      s.pulsesTaken i (min (n + 1) (32 - s.rtu.fireLog.length))
        (n + 1 - min (n + 1) (32 - s.rtu.fireLog.length)) (n + 1) := by
  have gate : s.gateOpen = true := by simp [State.gateOpen, hl]
  simp only [firingRule, State.pulsesTaken_gateOpen, State.pulsesTaken_room, gate, if_true]
  by_cases room : n < 32 - s.rtu.fireLog.length
  · rw [if_pos (by omega), Nat.min_eq_left (by omega), Nat.min_eq_left (by omega), Nat.sub_self, Nat.sub_self,
      firePulse_pulsesTaken]
  · rw [if_neg (by omega), Nat.min_eq_right (by omega), Nat.min_eq_right (by omega), skipPulse_pulsesTaken,
      Nat.sub_add_comm (by omega)]

/-- Not LEASED, a position passes (R49). -/
theorem firingRule_unleased (i : Fin 8) (s : State) (hl : s.lec.state ≠ .leased) (n : Nat) :
    firingRule i (s.pulsesTaken i 0 0 n) = s.pulsesTaken i 0 0 (n + 1) := by
  have gate : s.gateOpen = false := by simp [State.gateOpen, hl]
  simp only [firingRule, State.pulsesTaken_gateOpen, gate, Bool.false_eq_true, if_false, passPulse_pulsesTaken]

/-- After `n` positions of a slot in FIRING the next one is an opportunity when it is left and reached (R29, R48). -/
theorem opportunity_pulsesTaken (s : State) (i : Fin 8) (fires skips n : Nat) (hm : s.las.slots[i].mode = .firing) :
    (s.pulsesTaken i fires skips n).opportunity i = true ↔
      s.las.slots[i].next + n < s.las.slots[i].scheduled ∧
        s.scu.profile.position (s.las.slots[i].next + n) ≤ s.pins.mirrorCount.toNat := by
  simp only [State.opportunity, State.pulsesTaken_slot, LineSlot.pulsesTaken, hm, Bool.and_eq_true, decide_eq_true_eq,
    beq_self_eq_true, true_and]
  rfl

/-- Opportunities are taken one after another until none is left: `σ k` is the state after `k` of them. -/
theorem takeOpportunities_chain (i : Fin 8) (σ : Nat → State) (n fuel : Nat) (hn : n ≤ fuel)
    (isOpen : ∀ k < n, (σ k).opportunity i = true) (next : ∀ k < n, firingRule i (σ k) = σ (k + 1))
    (stop : n < fuel → (σ n).opportunity i = false) : takeOpportunities i fuel (σ 0) = σ n := by
  induction n generalizing σ fuel with
  | zero =>
    cases fuel with
    | zero => rfl
    | succ fuel => rw [takeOpportunities, stop (Nat.succ_pos _), if_neg (by decide)]
  | succ n ih =>
    cases fuel with
    | zero => omega
    | succ fuel =>
      rw [takeOpportunities, if_pos (isOpen 0 (Nat.succ_pos _)), next 0 (Nat.succ_pos _)]
      exact ih (fun k => σ (k + 1)) fuel (by omega) (fun k hk => isOpen (k + 1) (by omega))
        (fun k hk => next (k + 1) (by omega)) (fun h => stop (by omega))

/-- The mirror count has reached exactly `n` positions of the line in FIRING, and the firing rule leaves `fires k` fired and
`skips k` skipped after `k` of them: all `n` are taken (R48, log 28). -/
theorem pulseOpportunity_taken (s : State) (i : Fin 8) (n : Nat) (fires skips : Nat → Nat)
    (hi : s.las.filling = some i) (hm : s.las.slots[i].mode = .firing)
    (hn : s.las.slots[i].next + n ≤ s.las.slots[i].scheduled)
    (reached : ∀ k < n, s.scu.profile.position (s.las.slots[i].next + k) ≤ s.pins.mirrorCount.toNat)
    (beyond : s.las.slots[i].next + n < s.las.slots[i].scheduled →
      s.pins.mirrorCount.toNat < s.scu.profile.position (s.las.slots[i].next + n))
    (f0 : fires 0 = 0) (k0 : skips 0 = 0)
    (next : ∀ k, firingRule i (s.pulsesTaken i (fires k) (skips k) k) =
      s.pulsesTaken i (fires (k + 1)) (skips (k + 1)) (k + 1)) :
    pulseOpportunity s = s.pulsesTaken i (fires n) (skips n) n := by
  have chain := takeOpportunities_chain i (fun k => s.pulsesTaken i (fires k) (skips k) k) n
    (s.las.slots[i].scheduled - s.las.slots[i].next) (by omega)
    (fun k hk => (opportunity_pulsesTaken s i _ _ k hm).2 ⟨by omega, reached k hk⟩) (fun k _ => next k)
    (fun h => by
      rw [Bool.eq_false_iff, ne_eq, opportunity_pulsesTaken s i _ _ n hm]
      have := beyond (by omega)
      omega)
  rw [pulseOpportunity, hi]
  simpa only [f0, k0, State.pulsesTaken_zero] using chain

/-- PULSE_OPPORTUNITY at an active part (R48). -/
theorem exec_pulseOpportunity (mirror : MirrorCount) (head : HeadCount) (s : State) (h : s.active = true) :
    exec (.pulseOpportunity mirror head) s = .next (pulseOpportunity (countsArrive mirror head s)) := by
  have row : exec (.pulseOpportunity mirror head) s = execPulseOpportunity mirror head s := rfl
  rw [row, execPulseOpportunity, taken_active _ h, State.onEvent, if_pos (State.up_of_active h)]

/-- Settles O49, by induction on the positions that the mirror count has reached. -/
theorem firingRuleByGateAndLog : Obligations.FiringRuleByGateAndLog := by
  intro mirror head i start n s active sweeping hstart within hparking hparked filling firing left pos hpos reached beyond u hu
  have position : ∀ k, s.scu.profile.position k = pos k := fun k => (hpos k).symm
  have arrived : countsArrive mirror head s = u := by
    rw [hu, countsArrive_keepsUp mirror head s start sweeping hstart within hparking hparked]
  have las : u.las = s.las := by rw [hu]; rfl
  have lec : u.lec = s.lec := by rw [hu]; rfl
  have rtu : u.rtu = s.rtu := by rw [hu]; rfl
  have all_taken := fun fires skips => pulseOpportunity_taken u i n fires skips (las ▸ filling) (las ▸ firing) (las ▸ left)
    (by subst hu; exact fun k hk => Nat.le_trans (Nat.le_of_eq (position _)) (reached k hk))
    (by subst hu; exact fun h => Nat.lt_of_lt_of_eq (beyond h) (position _).symm)
  rw [exec_pulseOpportunity mirror head s active, arrived]
  constructor
  · rintro leased fires rfl
    rw [all_taken (fun k => min k (32 - s.rtu.fireLog.length)) (fun k => k - min k (32 - s.rtu.fireLog.length))
      (by simp) (by simp) (rtu ▸ firingRule_leased i u (lec ▸ leased))]
    subst hu
    rfl
  · intro unleased
    rw [all_taken (fun _ => 0) (fun _ => 0) rfl rfl (firingRule_unleased i u (lec ▸ unleased)), State.pulsesTaken,
      Rtu.firesLogged_zero, State.setRtu_self, las]
    rfl

end Sys2Proof.Machine
end

section
/-! PROOFS. The check of a return record (R56, R57), the matcher (R58 to R61, R65) and what a match or a loss of all entries
leaves of the line (R53, R37). -/

namespace Sys2Proof.Machine

/-! ### Retirement and the line (R53, R37) -/

/-- The line slot after `n` of its entries were retired LOST (R31). -/
def LineSlot.losing (sl : LineSlot) (n : Nat) : LineSlot :=
  { sl with lost := Nat.repeat (satInc 8192) n sl.lost }

/-- The count that goes first, before the other `n`. -/
theorem repeat_first {α : Type} (f : α → α) (n : Nat) (a : α) : Nat.repeat f n (f a) = Nat.repeat f (n + 1) a := by
  induction n with
  | zero => rfl
  | succ n ih => exact congrArg f ih

/-- A FILLING slot loses one entry and then `n` (R31, R53). -/
theorem LineSlot.takeLost_losing (sl : LineSlot) (h : sl.state = .filling) (n : Nat) :
    sl.takeLost.losing n = sl.losing (n + 1) := by
  rw [LineSlot.takeLost, if_pos h]
  exact congrArg (fun lost => { sl with lost := lost }) (repeat_first (satInc 8192) n sl.lost)

theorem retireLost_slot (s : State) {e : FireEntry} {i : Fin 8} (h : e.slot = i) :
    retireLost s e = s.setSlot i s.las.slots[i].takeLost := by
  subst h; rfl

theorem LineSlot.takeLost_state (sl : LineSlot) : sl.takeLost.state = sl.state := by
  unfold LineSlot.takeLost; split <;> rfl

/-- Entries of one FILLING slot that are retired LOST are counted there (R31, R53). -/
theorem retireAll_filling (es : List FireEntry) (s : State) (i : Fin 8) (hi : s.las.slots[i].state = .filling)
    (hes : ∀ e ∈ es, e.slot = i) : retireAll es s = s.setSlot i (s.las.slots[i].losing es.length) := by
  induction es generalizing s with
  | nil => exact (s.setSlot_self i).symm
  | cons e es ih =>
    obtain ⟨he, rest⟩ := List.forall_mem_cons.1 hes
    have slot : (retireLost s e).las.slots[i] = s.las.slots[i].takeLost := by
      rw [retireLost_slot s he, State.setSlot_las, Las.setSlot_get]
    have others := ih (retireLost s e) ((congrArg LineSlot.state slot).trans ((LineSlot.takeLost_state _).trans hi)) rest
    rw [slot, LineSlot.takeLost_losing _ hi, retireLost_slot s he, State.setSlot_set] at others
    rw [List.length_cons, ← others, ← retireLost_slot s he]
    rfl

/-- The same beside a change of the Return Unit. -/
theorem retireAll_setRtu (es : List FireEntry) (s : State) (u : Rtu) (i : Fin 8) (hi : s.las.filling = some i)
    (hes : ∀ e ∈ es, e.slot = i) :
    retireAll es (s.setRtu u) = (s.setRtu u).setSlot i (s.las.slots[i].losing es.length) :=
  retireAll_filling es (s.setRtu u) i (Las.state_of_filling hi) hes

/-- A FILLING line, if there is one, is in FIRING. -/
def Las.fillsFiring (l : Las) : Prop := ∀ i, l.filling = some i → l.slots[i].mode = .firing

theorem Las.fillsFiring_of_filling {l : Las} {i : Fin 8} (hi : l.filling = some i) (hm : l.slots[i].mode = .firing) :
    l.fillsFiring := by
  intro j hj
  rw [hi, Option.some.injEq] at hj
  exact hj ▸ hm

/-- Entries lost leave the line in FIRING. -/
theorem Las.fillsFiring_losing {l : Las} {i : Fin 8} (hi : l.filling = some i) (hm : l.slots[i].mode = .firing) (n : Nat) :
    (l.setSlot i (l.slots[i].losing n)).fillsFiring := by
  refine Las.fillsFiring_of_filling (i := i) ?_ ?_
  · exact (Las.filling_setSlot l i (l.slots[i].losing n) rfl).trans hi
  · rw [Las.setSlot_get]
    exact hm

/-- A line in FIRING is not sealed by a retirement (R37). -/
theorem sealDrained_firing (s : State) (h : s.las.fillsFiring) : sealDrained s = s := by
  cases hi : s.las.filling with
  | none => simp only [sealDrained, hi]
  | some i =>
    have running : ¬ (s.las.slots[i].mode = .stopped ∧ ∀ e ∈ s.rtu.fireLog, e.slot ≠ i) := by
      rw [h i hi]; exact fun stopped => nomatch stopped.1
    simp only [sealDrained, hi, if_neg running]

/-! ### The search in the fire log (R59) -/

/-- The record's entry is the first whose low byte agrees (R59). -/
theorem Rtu.entryFor_behind (u : Rtu) (low : Byte) (passed rest : List FireEntry) (e : FireEntry)
    (hlog : u.fireLog = passed ++ e :: rest) (hpassed : ∀ p ∈ passed, p.seq.setWidth 8 ≠ low)
    (he : e.seq.setWidth 8 = low) : u.entryFor low = some passed.length := by
  have ahead : passed.findIdx? (fun p => p.seq.setWidth 8 == low) = none := by
    simpa [List.findIdx?_eq_none_iff] using hpassed
  rw [Rtu.entryFor, hlog, List.findIdx?_append, ahead, List.findIdx?_cons]
  simp [he]

theorem Rtu.entryFor_none (u : Rtu) (low : Byte) (h : ∀ p ∈ u.fireLog, p.seq.setWidth 8 ≠ low) : u.entryFor low = none := by
  simpa [Rtu.entryFor, List.findIdx?_eq_none_iff] using h

/-! ### A record in MATCHING (R59, R60) -/

theorem takeMatching_none (r : ReturnRecord) (s : State) (h : s.rtu.entryFor r.seqLow = none) :
    takeMatching r s = strayRecord s := by
  simp only [takeMatching, h]

theorem takeMatching_agrees (r : ReturnRecord) (s : State) (d : Nat) (e : FireEntry)
    (hd : s.rtu.entryFor r.seqLow = some d) (he : s.rtu.fireLog[d]? = some e)
    (hfull : ∀ full, r.fullSeq = some full → full = e.seq) : takeMatching r s = matchAt d e r s := by
  simp only [takeMatching, hd, he]
  cases hf : r.fullSeq with
  | none => rfl
  | some full => exact if_pos (hfull full hf)

theorem takeMatching_differs (r : ReturnRecord) (s : State) (d : Nat) (e : FireEntry) (full : Serial)
    (hd : s.rtu.entryFor r.seqLow = some d) (he : s.rtu.fireLog[d]? = some e) (hf : r.fullSeq = some full)
    (hne : full ≠ e.seq) : takeMatching r s = strayRecord s := by
  simp only [takeMatching, hd, he, hf, if_neg hne]

/-! ### A record in HUNT (R61) -/

/-- An unmarked record, or one that finds no entry at all, is discarded. -/
theorem takeHunt_discards (r : ReturnRecord) (s : State) (h : r.fullSeq = none ∨ s.rtu.fireLog = []) :
    takeHunt r s = s := by
  rcases h with h | h
  · simp only [takeHunt, h]
  · cases hf : r.fullSeq <;> simp only [takeHunt, hf, h]

/-- What a marked record does by its distance from the head entry. -/
theorem takeHunt_marked (r : ReturnRecord) (s : State) (full : Serial) (h : FireEntry) (hf : r.fullSeq = some full)
    (hh : s.rtu.fireLog.head? = some h) :
    (∀ e, s.rtu.fireLog[(full - h.seq).toNat]? = some e → takeHunt r s = matchAt (full - h.seq).toNat e r s) ∧
    (s.rtu.fireLog.length ≤ (full - h.seq).toNat → (full - h.seq).toNat < 32768 → takeHunt r s = retireLog s) ∧
    (s.rtu.fireLog.length ≤ (full - h.seq).toNat → 32768 ≤ (full - h.seq).toNat → takeHunt r s = s) := by
  obtain ⟨tail, hlog⟩ := List.head?_eq_some_iff.1 hh
  simp only [takeHunt, hf, hlog]
  refine ⟨fun e he => by rw [he], fun hlen hd => ?_, fun hlen hd => ?_⟩
  · rw [List.getElem?_eq_none hlen]
    exact if_pos hd
  · rw [List.getElem?_eq_none hlen]
    exact if_neg (Nat.not_lt.2 hd)

/-! ### A match, and the loss of all entries (R53, R60, R65) -/

/-- The Point Former's time: 27 ticks a written echo, 8 with none (R65, R66). -/
theorem formingTicks_written (mode : EchoMode) (es : List RawEcho) :
    formingTicks (writtenCount mode es) =
      if es.length = 0 then 8 else if mode = .all then 27 * es.length else 27 := by
  cases es <;> cases mode <;> simp [formingTicks, writtenCount]

/-- The entry behind `passed` is matched: those ahead of it are lost to the line in FIRING, which goes on. -/
theorem sealDrained_matchAt (r : ReturnRecord) (s : State) (i : Fin 8) (passed rest : List FireEntry) (e : FireEntry)
    (hi : s.las.filling = some i) (hm : s.las.slots[i].mode = .firing) (hlog : s.rtu.fireLog = passed ++ e :: rest)
    (hpassed : ∀ p ∈ passed, p.slot = i) :
    sealDrained (matchAt passed.length e r s) =
      ((s.setRtu { s.rtu with fireLog := rest, matcher := .matching }).setSlot i
        (s.las.slots[i].losing passed.length)).setPfm
      (some { entry := e, record := r,
              doneAt := ticksAfter s.now (if r.echoes.length = 0 then 8
                else if s.las.slots[e.slot].echoMode = .all then 27 * r.echoes.length else 27) }) := by
  have ahead : s.rtu.fireLog.take passed.length = passed := by rw [hlog, List.take_left]
  have behind : s.rtu.fireLog.drop (passed.length + 1) = rest := by rw [hlog, ← List.drop_drop, List.drop_left]; rfl
  rw [matchAt]
  simp only [ahead, behind, formingTicks_written]
  rw [retireAll_setRtu passed s _ i hi hpassed]
  exact sealDrained_firing _ (Las.fillsFiring_losing hi hm _)

/-- All entries are lost to the line in FIRING, which goes on. -/
theorem sealDrained_retireLog (s : State) (i : Fin 8) (hi : s.las.filling = some i)
    (hm : s.las.slots[i].mode = .firing) (hlog : ∀ p ∈ s.rtu.fireLog, p.slot = i) :
    sealDrained (retireLog s) =
      (s.setRtu { s.rtu with fireLog := [] }).setSlot i (s.las.slots[i].losing s.rtu.fireLog.length) := by
  rw [retireLog, retireAll_setRtu s.rtu.fireLog s _ i hi hlog]
  exact sealDrained_firing _ (Las.fillsFiring_losing hi hm _)

/-! ### The record at the port (R56, R57, R58) -/

/-- What a return record hands to the matcher. -/
abbrev ReturnRecord.ofWire (r : WireRecord) : ReturnRecord :=
  { seqLow := r.seqLow, seqHigh := r.seqHigh, echoes := r.echoes }

/-- The check of R56. -/
theorem recordPasses_iff (r : WireRecord) :
    recordPasses r = true ↔ r.checkAgrees = true ∧ r.echoCount.toNat ≤ 4 ∧ r.echoes.length = r.echoCount.toNat ∧
      (r.seqLow = 0 ↔ r.seqHigh ≠ none) := by
  have marks : (r.seqLow == 0) = r.seqHigh.isSome ↔ (r.seqLow = 0 ↔ r.seqHigh ≠ none) := by
    rw [Bool.eq_iff_iff, beq_iff_eq, Option.isSome_iff_ne_none]
  simp only [recordPasses, Bool.and_eq_true, beq_iff_eq, decide_eq_true_eq, marks, and_assoc]

/-- RETURN_RECORD_COMPLETE at a running part. -/
theorem exec_returnRecordComplete (r : WireRecord) (s : State) (h : s.phase = .running) :
    exec (.returnRecordComplete r) s = .next (returnRecordComplete r s) :=
  taken_running _ h

section Running

variable {r : WireRecord} {s : State} (running : s.phase = .running) (whole : s.rtu.discardNext = false)
include running whole

/-- A record that fails the check is counted and discarded (R56). -/
theorem returnRecordComplete_fails (h : recordPasses r = false) :
    returnRecordComplete r s = s.setRtu { s.rtu with rxRecordError := satInc 65535 s.rtu.rxRecordError } := by
  simp [returnRecordComplete, running, Phase.portOpen, whole, h]

theorem returnRecordComplete_passes (h : recordPasses r = true) :
    returnRecordComplete r s = offerRecord (.ofWire r) s := by
  simp [returnRecordComplete, running, Phase.portOpen, whole, h]

/-- A good record at an empty holding slot goes to the matcher when the Point Former is free (R57, R58). -/
theorem returnRecordComplete_handled (h : recordPasses r = true) (empty : s.rtu.holding = none) (free : s.pfm = none) :
    returnRecordComplete r s = handleRecord (.ofWire r) s := by
  have put_back : { s.rtu with holding := none } = s.rtu := by rw [← empty]
  rw [returnRecordComplete_passes running whole h]
  simp [offerRecord, matcherPoll, empty, free, put_back]

end Running

theorem handleRecord_matching (r : ReturnRecord) (s : State) (h : s.rtu.matcher = .matching) :
    handleRecord r s = sealDrained (takeMatching r s) := by
  simp only [handleRecord, h]

theorem handleRecord_hunt (r : ReturnRecord) (s : State) (h : s.rtu.matcher = .hunt) :
    handleRecord r s = sealDrained (takeHunt r s) := by
  simp only [handleRecord, h]

/-- A record that is marked with `high` carries its full sequence. -/
theorem ReturnRecord.fullSeq_ofWire {r : WireRecord} {high : Byte} (h : r.seqHigh = some high) :
    (ReturnRecord.ofWire r).fullSeq = some (high ++ r.seqLow) := by
  simp [ReturnRecord.fullSeq, h]

/-! ### The cases of R58 to R61 -/

/-- The first entry whose low byte agrees, and whose sequence a marked record confirms, is matched (R59, R60). -/
theorem handleRecord_matches (r : WireRecord) (s : State) (passed rest : List FireEntry) (e : FireEntry)
    (hlog : s.rtu.fireLog = passed ++ e :: rest) (hmatcher : s.rtu.matcher = .matching)
    (hpassed : ∀ p ∈ passed, p.seq.setWidth 8 ≠ r.seqLow) (he : e.seq.setWidth 8 = r.seqLow)
    (hfull : ∀ high : Byte, r.seqHigh = some high → (high ++ r.seqLow : Serial) = e.seq) :
    handleRecord (.ofWire r) s = sealDrained (matchAt passed.length e (.ofWire r) s) := by
  rw [handleRecord_matching _ s hmatcher, takeMatching_agrees _ s passed.length e
    (s.rtu.entryFor_behind r.seqLow passed rest e hlog hpassed he) (by simp [hlog])]
  intro full hf
  obtain ⟨high, hhigh, rfl⟩ := Option.map_eq_some_iff.1 hf
  exact hfull high hhigh

/-- A marked record in HUNT whose distance from the head entry is an entry's place is that entry's (R61). -/
theorem handleRecord_hunts (r : WireRecord) (s : State) (passed rest : List FireEntry) (e h : FireEntry) (high : Byte)
    (hlog : s.rtu.fireLog = passed ++ e :: rest) (hmatcher : s.rtu.matcher = .hunt) (hhigh : r.seqHigh = some high)
    (hh : (passed ++ [e]).head? = some h) (hd : ((high ++ r.seqLow : Serial) - h.seq).toNat = passed.length) :
    handleRecord (.ofWire r) s = sealDrained (matchAt passed.length e (.ofWire r) s) := by
  have head : s.rtu.fireLog.head? = some h := by
    rw [hlog, List.append_cons, List.head?_append, hh]; rfl
  obtain ⟨matched, -, -⟩ := takeHunt_marked _ s _ h (ReturnRecord.fullSeq_ofWire hhigh) head
  rw [hd] at matched
  rw [handleRecord_hunt _ s hmatcher, matched e (by simp [hlog])]

/-- A record whose low byte no entry has, or whose full sequence the first entry of that low byte contradicts, is stray
(R59). -/
theorem takeMatching_stray (r : WireRecord) (s : State)
    (h : (∀ p ∈ s.rtu.fireLog, p.seq.setWidth 8 ≠ r.seqLow) ∨
      ∃ p high, s.rtu.fireLog.find? (fun p => p.seq.setWidth 8 == r.seqLow) = some p ∧ r.seqHigh = some high ∧
        (high ++ r.seqLow : Serial) ≠ p.seq) :
    takeMatching (.ofWire r) s = strayRecord s := by
  rcases h with none_agrees | ⟨p, high, hfind, hhigh, hne⟩
  · exact takeMatching_none _ s (s.rtu.entryFor_none r.seqLow none_agrees)
  · obtain ⟨hp, passed, rest, hlog, hpassed⟩ := List.find?_eq_some_iff_append.1 hfind
    exact takeMatching_differs _ s passed.length p _
      (s.rtu.entryFor_behind r.seqLow passed rest p hlog (by simpa using hpassed) (by simpa using hp))
      (by simp [hlog]) (ReturnRecord.fullSeq_ofWire hhigh) hne

/-- Settles O50, by the cases of the check, the holding slot and the matcher's state. -/
theorem returnRecordsByCase : Obligations.ReturnRecordsByCase := by
  intro r s running whole
  rw [exec_returnRecordComplete r s running]
  refine ⟨fun bad => ?_, fun agrees count length marks => ?_⟩
  · have fails : recordPasses r = false := by
      rw [Bool.eq_false_iff, ne_eq, recordPasses_iff]
      rintro ⟨agrees, count, length, marks⟩
      rcases bad with h | h | h | ⟨low, high⟩ | ⟨low, high⟩
      · exact Bool.false_ne_true (h ▸ agrees)
      · omega
      · exact h length
      · exact marks.1 low high
      · exact low (marks.2 high)
    rw [returnRecordComplete_fails running whole fails]
  have passes : recordPasses r = true := by
    refine (recordPasses_iff r).2 ⟨agrees, count, length, ?_⟩
    rcases marks with ⟨low, high⟩ | ⟨low, high⟩
    · exact ⟨fun zero => absurd zero low, fun marked => absurd high marked⟩
    · exact ⟨fun _ => high, fun _ => low⟩
  refine ⟨fun x occupied => ?_, fun empty free => ?_⟩
  · rw [returnRecordComplete_passes running whole passes]
    simp only [offerRecord, occupied]
  rw [returnRecordComplete_handled running whole passes empty free]
  refine ⟨fun i filling firing => ⟨fun passed e rest hlog hslot => ?_, ?_, ?_⟩, fun firing => ⟨?_, ?_⟩⟩
  · rintro (⟨matching, hpassed, he, hfull⟩ | ⟨hunt, high, h, hhigh, hh, hd⟩)
    · rw [handleRecord_matches r s passed rest e hlog matching hpassed he hfull,
        sealDrained_matchAt _ s i passed rest e filling firing hlog hslot]
      rfl
    · rw [handleRecord_hunts r s passed rest e h high hlog hunt hhigh hh hd,
        sealDrained_matchAt _ s i passed rest e filling firing hlog hslot]
      rfl
  · intro h high hh hhigh hunt hslot hlen hd
    obtain ⟨-, lost, -⟩ := takeHunt_marked _ s _ h (ReturnRecord.fullSeq_ofWire hhigh) hh
    rw [handleRecord_hunt _ s hunt, lost hlen hd, sealDrained_retireLog s i filling firing hslot]
    rfl
  · intro h high hh hhigh hunt hlen hd
    obtain ⟨-, -, discarded⟩ := takeHunt_marked _ s _ h (ReturnRecord.fullSeq_ofWire hhigh) hh
    rw [handleRecord_hunt _ s hunt, discarded (Nat.le_trans hlen hd) hd,
      sealDrained_firing s (Las.fillsFiring_of_filling filling firing)]
  · intro matching stray
    rw [handleRecord_matching _ s matching, takeMatching_stray r s stray]
    exact congrArg _ (sealDrained_firing (strayRecord s) firing)
  · intro hunt unmarked
    have nothing : (ReturnRecord.ofWire r).fullSeq = none ∨ s.rtu.fireLog = [] :=
      unmarked.imp_left fun h => by simp [ReturnRecord.fullSeq, h]
    rw [handleRecord_hunt _ s hunt, takeHunt_discards _ s nothing, sealDrained_firing s firing]

end Sys2Proof.Machine
end

section
/-! PROOFS. Every step keeps the emission record safe (R106 to R110, R115): each row's effect does, and so does an idle step;
and what EMIT_REQUEST and EMIT_RENEW do, case by case (R110 to R112, R117). -/

namespace Sys2Proof.Machine

/-! ### The emission record when the blocks start -/

/-- The after-reset values hold no lease and a mirror at rest, whatever the ILK input (R106, R119). -/
theorem startUp_laserSafe (cause : ResetCause) (s : State) : LaserSafe (startUp cause s) := by
  refine ⟨?_, ⟨fun _ => rfl, fun _ => rfl⟩, nofun, fun _ => ⟨rfl, rfl⟩, show (1 : Serial) ≠ 0 by decide⟩
  exact (Bool.and_false s.lec.ilkHigh).symm

/-! ### Effects that keep the invariant -/

/-- An effect on the part keeps the emission record safe, in every phase. -/
def KeepsLaser (f : State → State) : Prop := ∀ s : State, s.laserSafe → (f s).laserSafe

/-- What is safe while the blocks work is safe. -/
theorem LaserSafe.always {s : State} (h : LaserSafe s) : s.laserSafe := fun _ => h

/-- A part whose blocks do not work fires nothing (R181). -/
theorem State.laserSafe_of_not_up {s : State} (h : s.phase.up = false) : s.laserSafe :=
  fun up => absurd up (Bool.eq_false_iff.1 h)

/-- An effect that acts only while the blocks work. -/
theorem KeepsLaser.whenUp {f : State → State} (h : ∀ s, LaserSafe s → LaserSafe (f s)) :
    KeepsLaser fun s => s.whenUp f := by
  intro s hs
  simp only [State.whenUp]
  split
  · next up => exact (h s (hs up)).always
  · exact hs

/-- An event: while the blocks do not work it changes inputs alone. -/
theorem KeepsLaser.onEvent {inputs : Pins → Pins} {f : State → State} (h : ∀ s, LaserSafe s → LaserSafe (f s)) :
    KeepsLaser fun s => s.onEvent inputs f := by
  intro s hs
  simp only [State.onEvent]
  split
  · next up => exact (h s (hs up)).always
  · next down => exact State.laserSafe_of_not_up (Bool.eq_false_iff.2 down)

/-- What blocks are told when an event is complete leaves the emission record as it stands. -/
theorem tellAll_laserSafe {r : State × List Told} (h : LaserSafe r.1) : LaserSafe (tellAll r) :=
  (tellAll_still r).laserSafe h

theorem softResetProceed_keepsLaser : KeepsLaser softResetProceed := by
  intro s hs
  simp only [softResetProceed]
  split
  · exact (startUp_laserSafe _ s).always
  · exact hs

/-- A row answers the state that its effect leaves, after the reset that comes first (R181). -/
theorem KeepsLaser.of_taken {f : State → State} {s t : State} (k : KeepsLaser f) (hs : s.laserSafe)
    (h : taken f s = .next t) : t.laserSafe := by
  obtain rfl : f (softResetProceed s) = t := Host.Outcome.next.inj h
  exact k _ (softResetProceed_keepsLaser s hs)

/-! ### Frames (R162 to R164) -/

/-- Outside running no inbound byte is heard (R181, R182). -/
theorem feed_not_running (bytes : List Byte) (s : State) (h : s.phase ≠ .running) : feed bytes s = s := by
  induction bytes with
  | nil => rfl
  | cons b bs ih =>
    have ignored : rxByte s b = s := if_neg h
    rw [feed, List.foldl_cons, ignored]
    exact ih

theorem receiveFrame_not_running (f : Frame) (s : State) (h : s.phase ≠ .running) : receiveFrame f s = s := by
  rw [receiveFrame, if_neg (fun k => h k.1), feed_not_running _ s h]

theorem receiveFrame_keepsLaser (f : Frame) : KeepsLaser (receiveFrame f) := by
  intro s hs
  by_cases running : s.phase = .running
  · exact ((receiveFrame_sound f s).laser (hs (by rw [running]; rfl))).always
  · rw [receiveFrame_not_running f s running]
    exact hs

theorem receiveCommand_keepsLaser (tag : Byte) (c : HostCmd) : KeepsLaser (receiveCommand tag c) :=
  receiveFrame_keepsLaser (hostFrame tag c)

/-! ### Resets and supply (R135, R181, R182) -/

theorem powerOnReset_keepsLaser : KeepsLaser powerOnReset := fun _ _ => State.laserSafe_of_not_up rfl

theorem supplyLoss_keepsLaser : KeepsLaser supplyLoss := fun _ _ => State.laserSafe_of_not_up rfl

theorem resetInputRelease_keepsLaser : KeepsLaser resetInputRelease := by
  intro s hs
  simp only [resetInputRelease]
  split
  · exact (startUp_laserSafe _ _).always
  · exact hs

theorem loadingComplete_keepsLaser (midRecord : Bool) : KeepsLaser (loadingComplete midRecord) := by
  intro s hs
  by_cases loading : s.phase = .loading
  · have safe : LaserSafe s := hs (by rw [loading]; rfl)
    rw [loadingComplete, if_pos loading]
    exact LaserSafe.always (safe.of_eq rfl rfl)
  · rw [loadingComplete, if_neg loading]
    exact hs

/-! ### Timebase, return port, store and interlock -/

theorem markLine_still (s : State) : Still s (markLine s) := by
  unfold markLine; split
  · exact .setSlot s _ _
  · exact .refl s

theorem markPhoto_still (s : State) : Still s (markPhoto s) := by
  unfold markPhoto; split
  · exact .setFrame s _ _
  · exact .refl s

/-- A switch of the timebase takes a FINE mirror to COARSE at most: the mirror's own move keeps the record safe (R78, R107). -/
theorem referenceLoss_sound (s : State) : Sound s (referenceLoss s) := by
  unfold referenceLoss
  split
  · split
    · exact setTbu_sound s _
    · dsimp only
      split
      · exact setTbu_sound s _
      · exact (((setTbu_sound s _).trans (reportEdge_still _ _ _).sound).trans (mirrorSwitch_sound _)).trans
          ((markLine_still _).trans (markPhoto_still _)).sound
  · exact .refl s

theorem returnRecordComplete_keepsLaser (r : WireRecord) : KeepsLaser (returnRecordComplete r) := by
  intro s hs up
  have still := returnRecordComplete_still r s
  exact still.laserSafe (hs (still.phase ▸ up))

theorem pageWriteEnd_sound (agrees : Bool) (s : State) : Sound s (pageWriteEnd agrees s) := by
  have written (c : Cal) : Sound s ((s.setFreeDraw (s.freeDraw + 1)).setCal c) :=
    (setFreeDraw_sound s _).trans (setCal_sound _ c)
  unfold pageWriteEnd
  split
  · exact .refl s
  · split
    · dsimp only
      split
      · exact written _
      · split
        · exact written _
        · exact (written _).trans (appendEvent_still _ _).sound
    · exact .refl s

/-- The effect of ILK_CHANGE: evaluated while the blocks work, else the level alone (R107, log 26). -/
theorem ilkChange_keepsLaser (high : Bool) :
    KeepsLaser fun s => if s.phase.up then tellAll (ilkChange high s) else s.setLec { s.lec with ilkHigh := high } := by
  intro s hs
  dsimp only
  split
  · next up => exact (tellAll_laserSafe (ilkChange_laserSafe high s (hs up))).always
  · next down => exact State.laserSafe_of_not_up (Bool.eq_false_iff.2 down)

/-! ### The step -/

/-- Every row keeps the emission record safe. -/
theorem exec_laserSafe (c : Instr) {s t : State} (hs : s.laserSafe) (h : exec c s = .next t) : t.laserSafe := by
  cases c with
  | statusQuery | reset | profileSet | profileGet | sweepStart | sweepAbort | gapsGet | mirrorSpin | mirrorPark
  | mirrorStop | headSlew | headHold | headRelease | emitRequest | emitRenew | emitOff | calSet | calGet | calCommit
  | calRevert | stationSet | stationClear | stationGet | photoRunStart | photoRunAbort | subscribe | prioritySet
  | timebaseRestore => exact (receiveCommand_keepsLaser _ _).of_taken hs h
  | unknownKind => exact (receiveFrame_keepsLaser _).of_taken hs h
  | inboundFrameComplete bytes | syncPairFound bytes | lengthAbove4096 bytes =>
    exact (KeepsLaser.whenUp fun s => (feed_sound bytes s).laser).of_taken hs h
  | outboundFrameEnd => exact (KeepsLaser.whenUp fun s => (outboundFrameEnd_sound s).laser).of_taken hs h
  | powerOnReset => exact powerOnReset_keepsLaser.of_taken hs h
  | resetInputRelease => exact resetInputRelease_keepsLaser.of_taken hs h
  | softResetProceed => exact KeepsLaser.of_taken (f := id) (fun _ hs => hs) hs h
  | loadingComplete midRecord => exact (loadingComplete_keepsLaser midRecord).of_taken hs h
  | supplyLoss => exact supplyLoss_keepsLaser.of_taken hs h
  | referenceLoss => exact (KeepsLaser.whenUp fun s => (referenceLoss_sound s).laser).of_taken hs h
  | referenceReturn => exact (KeepsLaser.whenUp fun s => (setTbu_sound s _).laser).of_taken hs h
  | indexPulse head =>
    exact (KeepsLaser.onEvent fun s l => tellAll_laserSafe
      (indexPulse_laserSafe _ (countsArrive_laserSafe 0 head s l))).of_taken hs h
  | prepareTimeout => exact (KeepsLaser.whenUp fun s => (prepareTimeout_still s).laserSafe).of_taken hs h
  | pulseOpportunity mirror head =>
    exact (KeepsLaser.onEvent fun s l => (pulseOpportunity_still _).laserSafe
      (countsArrive_laserSafe mirror head s l)).of_taken hs h
  | returnRecordComplete record => exact (returnRecordComplete_keepsLaser record).of_taken hs h
  | returnTimeout => exact (KeepsLaser.whenUp fun s => (returnTimeout_still s).laserSafe).of_taken hs h
  | pointHandover => exact (KeepsLaser.whenUp fun s => (pointHandover_still s).laserSafe).of_taken hs h
  | spinupTimeout =>
    exact (KeepsLaser.whenUp fun s l => have ⟨safe, _, _, _⟩ := mirrorTimeouts_laserSafe s l
      tellAll_laserSafe safe).of_taken hs h
  | indexLoss =>
    exact (KeepsLaser.whenUp fun s l => have ⟨_, safe, _, _⟩ := mirrorTimeouts_laserSafe s l
      tellAll_laserSafe safe).of_taken hs h
  | parkTimeout =>
    exact (KeepsLaser.whenUp fun s l => have ⟨_, _, safe, _⟩ := mirrorTimeouts_laserSafe s l
      tellAll_laserSafe safe).of_taken hs h
  | parkLost =>
    exact (KeepsLaser.whenUp fun s l => have ⟨_, _, _, safe⟩ := mirrorTimeouts_laserSafe s l
      tellAll_laserSafe safe).of_taken hs h
  | parkSettleExpiry => exact (KeepsLaser.whenUp parkSettleExpiry_laserSafe).of_taken hs h
  | parkDistanceChange mirror => exact (KeepsLaser.onEvent (mirrorMoves_laserSafe mirror)).of_taken hs h
  | mirrorDriverFault asserted =>
    exact (KeepsLaser.onEvent fun s l => tellAll_laserSafe (mirrorDriverFault_laserSafe asserted s l)).of_taken hs h
  | headDistanceChange head | followingError head =>
    exact (KeepsLaser.onEvent fun s => (headArrives_still head s).laserSafe).of_taken hs h
  | headSettleExpiry => exact (KeepsLaser.whenUp fun s => (headSettleExpiry_still s).laserSafe).of_taken hs h
  | slewTimeout => exact (KeepsLaser.whenUp fun s l => tellAll_laserSafe ((slewTimeout_still s).laserSafe l)).of_taken hs h
  | headDriverFault asserted =>
    exact (KeepsLaser.onEvent fun s l => tellAll_laserSafe ((headDriverFault_still asserted s).laserSafe l)).of_taken hs h
  | ilkChange high => exact (ilkChange_keepsLaser high).of_taken hs h
  | leaseExpiry => exact (KeepsLaser.whenUp fun s l => tellAll_laserSafe (leaseExpiry_laserSafe s l)).of_taken hs h
  | pageWriteEnd agrees => exact (KeepsLaser.whenUp fun s => (pageWriteEnd_sound agrees s).laser).of_taken hs h
  | positioningTimeout =>
    exact (KeepsLaser.whenUp fun s l => tellAll_laserSafe (positioningTimeout_laserSafe s l)).of_taken hs h
  | midExposureSample head mirror =>
    exact (KeepsLaser.onEvent fun s l => (midExposureSample_still _).laserSafe
      (countsArrive_laserSafe mirror head s l)).of_taken hs h
  | exposureEnd => exact (KeepsLaser.whenUp fun s => (exposureEnd_still s).laserSafe).of_taken hs h
  | readoutEnd image =>
    exact (KeepsLaser.whenUp fun s l => tellAll_laserSafe (readoutEnd_laserSafe image s l)).of_taken hs h

/-- The queue of commands is no part of the emission record. -/
theorem setPending_laserSafe {s : State} (l : LaserSafe s) (x : List Instr) : LaserSafe (s.setPending x) :=
  l.of_eq rfl rfl

/-- One tick changes the tick, the head's following error and the queue (R96, R177, log 1). -/
theorem oneTick_laserSafe (s : State) (l : LaserSafe s) : LaserSafe (oneTick s) := by
  have ticked : LaserSafe (syncFollowing (s.setTbu { s.tbu with tick := s.tbu.tick + 1 })) :=
    (syncFollowing_still _).laserSafe ((setTbu_sound s _).laser l)
  unfold oneTick
  dsimp only
  split
  · exact ticked
  · exact setPending_laserSafe ((setFreeDraw_sound _ _).laser ticked) _

theorem idle_keepsLaser : KeepsLaser idle := by
  intro s hs
  unfold idle
  split
  · next up =>
    split
    · exact (setPending_laserSafe (hs up) _).always
    · exact (oneTick_laserSafe s (hs up)).always
  · exact hs

/-- Settles O4, by the command at the front of the queue: a row keeps the record safe, and so does an idle step. -/
theorem laserStaysSafeAtEveryStep : Obligations.LaserStaysSafeAtEveryStep := by
  intro s t hs h
  unfold step at h
  split at h
  · obtain rfl : idle s = t := Host.Outcome.next.inj h
    exact idle_keepsLaser s hs
  · next c rest _ =>
    have dequeued : (s.setPending rest).laserSafe := fun up => setPending_laserSafe (hs up) rest
    exact exec_laserSafe c dequeued h

/-! ### What a command answered at once leaves (R164 to R166) -/

/-- The row of a host command that is refused: it is answered, and that is all. -/
theorem onlyAnswered_of_refused {s : State} {i : Instr} {tag : Byte} {c : HostCmd} {st : Status} {body : List Byte}
    (h : Accepts s) (hc : hostFits c = true) (row : exec i s = taken (receiveCommand tag c) s)
    (hr : runHost c s.listening = refuse s.listening st body) :
    OnlyAnswered i s (replyFrame (hostKind c) tag st body) :=
  ⟨receiveCommand tag c s, row.trans (taken_running _ h.1), command_refused h hc hr⟩

/-! ### The lease (R110, R111, R112) -/

/-- A lease changes the emission record and nothing of the outbound side. -/
theorem leaseFor_arbited (s : State) (n : Nat) : Arbited s (s.leaseFor n) := .of_eq rfl rfl rfl rfl

theorem leaseFor_held (s : State) (n : Nat) : LaneHeld s (s.leaseFor n) := .of_eq rfl rfl

theorem leaseFor_undisturbed {s t : State} {n : Nat} (h : Undisturbed (s.leaseFor n) t) : Undisturbed s t :=
  ⟨h.las, h.phu, h.evr, h.levels⟩

/-! ### EMIT_REQUEST and EMIT_RENEW, check by check (R111, R112) -/

theorem exec_emitRequest (tag d : Byte) (s : State) :
    exec (.emitRequest tag d) s = taken (receiveCommand tag (.emitRequest d)) s := rfl

theorem exec_emitRenew (tag d : Byte) (token : Half) (s : State) :
    exec (.emitRenew tag token d) s = taken (receiveCommand tag (.emitRenew token d)) s := rfl

theorem cmdEmitRequest_range {d : Byte} (s : State) (h : d.toNat < 1 ∨ 60 < d.toNat) :
    cmdEmitRequest d s = refuse s .range (byte s.lec.state.ctorIdx) := if_pos h

theorem cmdEmitRenew_range (token : Half) {d : Byte} (s : State) (h : d.toNat < 1 ∨ 60 < d.toNat) :
    cmdEmitRenew token d s = refuse s .range := if_pos h

section Duration

variable {d : Byte} {s : State} (low : 1 ≤ d.toNat) (high : d.toNat ≤ 60)
include low high

theorem cmdEmitRequest_leased (h : s.lec.state = .leased) : cmdEmitRequest d s = refuse s .state [0x02] := by
  rw [cmdEmitRequest, if_neg (by omega), h]; rfl

theorem cmdEmitRequest_lockedOut (h : s.lec.state = .lockedOut) : cmdEmitRequest d s = refuse s .interlock [0x00] := by
  rw [cmdEmitRequest, if_neg (by omega), h]; rfl

theorem cmdEmitRequest_off (h : s.lec.state = .off) :
    cmdEmitRequest d s =
      okWith (reportEdge .emitLeased true (s.leaseFor d.toNat)) (s.leaseFor d.toNat).leaseBody := by
  rw [cmdEmitRequest, if_neg (by omega), h]

theorem cmdEmitRenew_unleased (token : Half) (h : s.lec.state ≠ .leased) : cmdEmitRenew token d s = refuse s .state := by
  rw [cmdEmitRenew, if_neg (by omega)]
  cases k : s.lec.state
  case leased => exact absurd k h
  all_goals rfl

theorem cmdEmitRenew_otherToken {token : Half} (h : s.lec.state = .leased) (ht : s.lec.token ≠ some token) :
    cmdEmitRenew token d s = refuse s .token := by
  rw [cmdEmitRenew, if_neg (by omega), h]
  exact if_neg ht

theorem cmdEmitRenew_inForce {token : Half} (h : s.lec.state = .leased) (ht : s.lec.token = some token) :
    cmdEmitRenew token d s = okWith (s.leaseFor d.toNat) (s.leaseFor d.toNat).leaseBody := by
  rw [cmdEmitRenew, if_neg (by omega), h]
  exact if_pos ht

end Duration

/-- A safe record's token in force is not 0 (R110). -/
theorem LaserSafe.token_ne_zero {s : State} (l : LaserSafe s) (h : s.lec.state = .leased) : s.lec.token ≠ some 0 := by
  obtain ⟨n, _, token, nonzero, -⟩ := l.leased h
  rw [token]
  exact fun zero => nonzero (Option.some.inj zero)

/-- Settles O32, by the checks in their order: RANGE, then the state of the controller. -/
theorem emitRequestIssuesALease : Obligations.EmitRequestIssuesALease := by
  intro tag d s h
  have row := exec_emitRequest tag d s
  refine ⟨fun range => ?_, fun low high leased => ?_, fun low high lockedOut => ?_, fun low high off => ?_⟩
  · exact onlyAnswered_of_refused h rfl row (cmdEmitRequest_range s.listening range)
  · exact onlyAnswered_of_refused h rfl row (cmdEmitRequest_leased (s := s.listening) low high leased)
  · exact onlyAnswered_of_refused h rfl row (cmdEmitRequest_lockedOut (s := s.listening) low high lockedOut)
  · have link := reportEdge_link .emitLeased true (s.listening.leaseFor d.toNat)
    have held := reportEdge_held .emitLeased true (s.listening.leaseFor d.toNat)
    have arbited := reportEdge_arbited .emitLeased true (s.listening.leaseFor d.toNat)
    have reported : Reported (s.edge .emitLeased true) s (reportEdge .emitLeased true (s.listening.leaseFor d.toNat)) :=
      (reportEdge_reported .emitLeased true (s.listening.leaseFor d.toNat)).after rfl rfl rfl rfl
        (fun x => by cases x <;> rfl)
    obtain ⟨inner, undisturbed, answered⟩ := command_ok (tag := tag) (c := .emitRequest d) h rfl
      (cmdEmitRequest_off (s := s.listening) low high off) link
      (((listening_held s).trans (leaseFor_held _ _)).trans held)
    exact ⟨_, row.trans (taken_running _ h.1), inner.trans (reportEdge_inner _ _ _),
      (((listening_arbited s).trans (leaseFor_arbited _ _)).trans arbited).trans undisturbed.arbited,
      reported.then undisturbed.evr, answered⟩

/-- Settles O33, by the checks in their order: RANGE, STATE, TOKEN; a safe record's token is never 0. -/
theorem emitRenewReplacesTheToken : Obligations.EmitRenewReplacesTheToken := by
  intro tag d token s h
  have row := exec_emitRenew tag d token s
  refine ⟨fun range => ?_, fun low high unleased => ?_, fun low high leased other => ?_, fun low high leased inForce => ?_⟩
  · exact onlyAnswered_of_refused h rfl row (cmdEmitRenew_range token s.listening range)
  · exact onlyAnswered_of_refused h rfl row (cmdEmitRenew_unleased (s := s.listening) low high token unleased)
  · have differs : s.lec.token ≠ some token := by
      rcases other with differs | ⟨safe, rfl⟩
      · exact differs
      · exact safe.token_ne_zero leased
    exact onlyAnswered_of_refused h rfl row (cmdEmitRenew_otherToken (s := s.listening) low high leased differs)
  · obtain ⟨inner, undisturbed, answered⟩ := command_ok (tag := tag) (c := .emitRenew token d) h rfl
      (cmdEmitRenew_inForce (s := s.listening) low high leased inForce) rfl
      ((listening_held s).trans (leaseFor_held _ _))
    exact ⟨_, row.trans (taken_running _ h.1), inner, listening_undisturbed (leaseFor_undisturbed undisturbed), answered⟩

end Sys2Proof.Machine
end
section
/-! PROOFS. The Calibration Unit and its store: the laws of copied pages and of page masks (R125), the load of selected pages
(R126, R130), CAL_SET, CAL_REVERT and CAL_COMMIT when they are taken (R128 to R132), and the end of a page write (R132, R134). -/

namespace Sys2Proof.Machine

/-! ### Copied pages (R120) -/

/-- A page copied over a copy of the same page. -/
@[simp] theorem copyPage_copyPage_same (p : Fin 5) (src dst rest : Pages) :
    copyPage p (copyPage p src dst) rest = copyPage p src rest := by
  match p with
  | 0 | 1 | 2 | 3 | 4 => rfl

/-- Another page is unchanged by a copy. -/
theorem copyPage_copyPage_ne {p q : Fin 5} (h : p ≠ q) (src dst rest : Pages) :
    copyPage p (copyPage q src dst) rest = copyPage p dst rest := by
  match p, q with
  | 0, 0 | 1, 1 | 2, 2 | 3, 3 | 4, 4 => exact absurd rfl h
  | 0, 1 | 0, 2 | 0, 3 | 0, 4 | 1, 0 | 1, 2 | 1, 3 | 1, 4 | 2, 0 | 2, 1 | 2, 3 | 2, 4 | 3, 0 | 3, 1 | 3, 2 | 3, 4
  | 4, 0 | 4, 1 | 4, 2 | 4, 3 => rfl

/-! ### Page masks (R125) -/

theorem PageMask.mem_pages (m : PageMask) (p : Fin 5) : p ∈ m.pages ↔ m.has p = true := by
  have all : ∀ q : Fin 5, q ∈ allPages := by decide
  simp [PageMask.pages, all p]

/-- The lowest selected page is the first of the selected pages. -/
theorem PageMask.pages_of_lowest {m : PageMask} {p : Fin 5} (selected : m.has p = true)
    (lowest : ∀ q : Fin 5, q < p → m.has q = false) : ∃ rest, m.pages = p :: rest := by
  have split : ∀ q : Fin 5, allPages = allPages.filter (· < q) ++ q :: allPages.filter (q < ·) := by decide
  have below : (allPages.filter (· < p)).filter m.has = [] := by
    simp only [List.filter_filter, List.filter_eq_nil_iff, Bool.and_eq_true, decide_eq_true_eq]
    rintro q - ⟨has, lt⟩
    exact absurd has (Bool.eq_false_iff.1 (lowest q lt))
  refine ⟨(allPages.filter (p < ·)).filter m.has, ?_⟩
  calc m.pages = (allPages.filter (· < p) ++ p :: allPages.filter (p < ·)).filter m.has := congrArg _ (split p)
    _ = p :: (allPages.filter (p < ·)).filter m.has := by
      rw [List.filter_append, below, List.nil_append, List.filter_cons_of_pos selected]

/-- A mask field from 1 to 31 is the mask (R130, R131). -/
theorem maskOf_eq {b : Byte} (low : 1 ≤ b.toNat) (high : b.toNat ≤ 31) : maskOf b = some (b.setWidth 5) :=
  if_pos ⟨low, high⟩

theorem toNat_setWidth_mask {b : Byte} (high : b.toNat ≤ 31) : (b.setWidth 5).toNat = b.toNat := by
  rw [BitVec.toNat_setWidth]; omega

/-! ### The load (R126, R127, R130) -/

/-- What a selected page is loaded from: the store page when that is valid, else the defaults (R126). -/
def Cal.loadSource (c : Cal) (p : Fin 5) : Pages := if c.pageValid p then c.stored else Pages.defaults

/-- A load touches working pages, unsaved flags and defaulted mask only. -/
structure LoadKept (c d : Cal) : Prop where
  stored       : d.stored = c.stored
  checkAgrees  : d.checkAgrees = c.checkAgrees
  invalid      : d.invalid = c.invalid
  state        : d.state = c.state

theorem LoadKept.refl (c : Cal) : LoadKept c c := ⟨rfl, rfl, rfl, rfl⟩

theorem LoadKept.trans {c d e : Cal} (h : LoadKept c d) (k : LoadKept d e) : LoadKept c e :=
  ⟨k.stored.trans h.stored, k.checkAgrees.trans h.checkAgrees, k.invalid.trans h.invalid, k.state.trans h.state⟩

theorem LoadKept.loadSource {c d : Cal} (h : LoadKept c d) (p : Fin 5) : d.loadSource p = c.loadSource p := by
  have valid : d.pageValid p = c.pageValid p := by
    simp only [Cal.pageValid, h.stored, h.checkAgrees, h.invalid]
  rw [Cal.loadSource, Cal.loadSource, valid, h.stored]

theorem Cal.loadPage_kept (c : Cal) (p : Fin 5) : LoadKept c (c.loadPage p) := by
  unfold Cal.loadPage; split
  · exact ⟨rfl, rfl, rfl, rfl⟩
  · exact ⟨rfl, rfl, rfl, rfl⟩

theorem Cal.loadPage_working (c : Cal) (p : Fin 5) :
    (c.loadPage p).working = copyPage p (c.loadSource p) c.working := by
  unfold Cal.loadPage Cal.loadSource; split <;> rfl

theorem foldl_loadPage_kept (l : List (Fin 5)) (c : Cal) : LoadKept c (l.foldl Cal.loadPage c) := by
  induction l generalizing c with
  | nil => exact .refl c
  | cons q l ih => exact (c.loadPage_kept q).trans (ih _)

theorem Cal.load_kept (c : Cal) (m : PageMask) : LoadKept c (c.load m) :=
  LoadKept.trans (d := { c with defaulted := 0 }) ⟨rfl, rfl, rfl, rfl⟩ (foldl_loadPage_kept _ _)

/-- Pages loaded one after another: each one of them holds its source, every other page what it held. -/
theorem foldl_loadPage_working (l : List (Fin 5)) (c : Cal) (p : Fin 5) (rest : Pages) :
    copyPage p (l.foldl Cal.loadPage c).working rest
      = copyPage p (if p ∈ l then c.loadSource p else c.working) rest := by
  induction l generalizing c with
  | nil => simp
  | cons q l ih =>
    rw [List.foldl_cons, ih, (c.loadPage_kept q).loadSource, c.loadPage_working]
    by_cases later : p ∈ l
    · simp [later]
    · by_cases now : p = q
      · subst now; simp [later]
      · simp [later, now, copyPage_copyPage_ne now]

/-- After a load each page holds what CAL_REVERT takes it from (R126, R130). -/
theorem Cal.load_working (c : Cal) (m : PageMask) (p : Fin 5) (rest : Pages) :
    copyPage p (c.load m).working rest = copyPage p (c.revertSource m p) rest := by
  have cleared : LoadKept c { c with defaulted := 0 } := ⟨rfl, rfl, rfl, rfl⟩
  rw [Cal.load, foldl_loadPage_working, cleared.loadSource]
  simp only [PageMask.mem_pages, Cal.revertSource, Cal.loadSource]

/-! ### Commands of the Calibration Unit that are taken (R128 to R131) -/

/-- The row of a host command that changes the calibration alone: it is answered, and the calibration is as it left it. -/
theorem calCommand_ok {s : State} {i : Instr} {tag : Byte} {c : HostCmd} {x : Cal} {body : List Byte} (h : Accepts s)
    (hc : hostFits c = true) (row : exec i s = taken (receiveCommand tag c) s)
    (hr : runHost c s.listening = okWith (s.listening.setCal x) body) :
    ∃ t, exec i s = .next t ∧ t.inner = (s.setCal x).inner ∧ t.cal = x ∧ Undisturbed s t ∧
      Answered s t (replyFrame (hostKind c) tag .ok body) := by
  obtain ⟨inner, undisturbed, answered⟩ := command_ok (tag := tag) h hc hr rfl (listening_held s)
  obtain ⟨-, -, -, -, -, -, -, -, -, -, -, cal, -⟩ := inner_eq inner
  exact ⟨_, row.trans (taken_running _ h.1), inner, cal,
    ⟨undisturbed.las, undisturbed.phu, undisturbed.evr, undisturbed.levels⟩, answered⟩

theorem State.tablesHeld_of_idle {s : State} (sweep : s.scu.state = .idle) (run : s.phu.state = .idle) :
    s.tablesHeld = false := by
  simp [State.tablesHeld, sweep, run]

/-- The value that CAL_SET writes is the one then held, with the range as before. -/
theorem calValueAt_calWrite {w : Pages} {page index : Nat} {old : CalValue} (v : Int)
    (h : calValueAt w page index = some old) :
    calValueAt (calWrite w page index v) page index = some { old with held := v } := by
  have table {n i : Nat} {low high : Int} {x : Vector Int n}
      (k : x[i]?.map (fun u => CalValue.mk u low high) = some old) :
      (x.setIfInBounds i v)[i]?.map (fun u => CalValue.mk u low high) = some { old with held := v } := by
    obtain ⟨u, hu, rfl⟩ := Option.map_eq_some_iff.1 k
    have inside : i < n := (Vector.getElem?_eq_some_iff.1 hu).1
    simp [inside]
  match page, index with
  | 0, _ => exact table h
  | 1, _ => exact table h
  | 2, 0 | 3, 0 | 3, 1 => obtain rfl := Option.some.inj h; rfl
  | 2, _ + 1 => exact table h
  | 3, _ + 2 | _ + 4, _ => exact absurd h nofun

theorem cmdCalSet_ok {page index : Byte} {value : Half} {old : CalValue} {s : State}
    (addressed : calValueAt s.cal.working page.toNat index.toNat = some old) (low : old.low ≤ value.toInt)
    (high : value.toInt ≤ old.high) (held : s.tablesHeld = false) (store : s.cal.state ≠ .writing) :
    cmdCalSet page index value s =
      okWith (s.setCal { s.cal with
          working := calWrite s.cal.working page.toNat index.toNat value.toInt,
          unsaved := s.cal.unsaved.add (pageOf page.toNat) })
        (byte page.toNat ++ byte index.toNat ++ leInt 2 value.toInt ++ leInt 2 old.held) := by
  have inRange : within old.low old.high value.toInt = true := by simp [within, low, high]
  simp [cmdCalSet, addressed, inRange, held, store]

theorem cmdCalRevert_ok {mask : Byte} {s : State} (low : 1 ≤ mask.toNat) (high : mask.toNat ≤ 31)
    (held : s.tablesHeld = false) (store : s.cal.state ≠ .writing) :
    cmdCalRevert mask s =
      okWith (s.setCal (s.cal.load (mask.setWidth 5)))
        (byte mask.toNat ++ byte (s.cal.load (mask.setWidth 5)).defaulted.toNat) := by
  simp only [cmdCalRevert, maskOf_eq low high, held, store, toNat_setWidth_mask high, Bool.false_eq_true, if_false]

theorem cmdCalCommit_ok {mask : Byte} {p : Fin 5} {s : State} (low : 1 ≤ mask.toNat) (high : mask.toNat ≤ 31)
    (store : s.cal.state ≠ .writing) (selected : PageMask.has (mask.setWidth 5) p = true)
    (lowest : ∀ q : Fin 5, q < p → PageMask.has (mask.setWidth 5) q = false) :
    cmdCalCommit mask s =
      okWith
        (s.setCal (Cal.beginPage { s.cal with commitMask := mask.setWidth 5, outcomes := [], state := .writing } p
          (s.expiryIn pageWriteTicks)))
        (byte mask.toNat ++ byte (PageMask.pages (mask.setWidth 5)).length) := by
  obtain ⟨rest, first⟩ := PageMask.pages_of_lowest selected lowest
  simp only [cmdCalCommit, maskOf_eq low high, store, toNat_setWidth_mask high, first, if_false]

/-- Settles O24: CAL_SET past its three checks, and the value read back where it was written. -/
theorem calSetReplacesOneValue : Obligations.CalSetReplacesOneValue := by
  intro tag page index value old s h addressed low high sweep run store
  have ok := cmdCalSet_ok (s := s.listening) addressed low high
    (State.tablesHeld_of_idle (s := s.listening) sweep run) store
  obtain ⟨t, next, inner, cal, undisturbed, answered⟩ :=
    calCommand_ok (i := .calSet tag page index value) (tag := tag) (c := .calSet page index value) h rfl rfl ok
  refine ⟨t, next, inner, ?_, undisturbed, answered⟩
  rw [cal]
  exact calValueAt_calWrite value.toInt addressed

/-- Settles O25: CAL_REVERT past its three checks, and the load read page by page. -/
theorem calRevertLoadsTheSelectedPages : Obligations.CalRevertLoadsTheSelectedPages := by
  intro tag mask s h low high sweep run store
  have ok := cmdCalRevert_ok (s := s.listening) low high (State.tablesHeld_of_idle (s := s.listening) sweep run) store
  obtain ⟨t, next, inner, cal, undisturbed, answered⟩ :=
    calCommand_ok (i := .calRevert tag mask) (tag := tag) (c := .calRevert mask) h rfl rfl ok
  have page (p : Fin 5) : copyPage p t.cal.working Pages.defaults
      = copyPage p (s.cal.revertSource (mask.setWidth 5) p) Pages.defaults := by
    rw [cal]; exact Cal.load_working s.cal _ p _
  exact ⟨t, next, inner, undisturbed, answered, (congrArg Pages.vangle (page 0) :), (congrArg Pages.hangle (page 1) :),
    (congrArg Pages.rangeOffset (page 2) :), (congrArg Pages.walk (page 2) :), (congrArg Pages.cameraAzimuth (page 3) :),
    (congrArg Pages.cameraElevation (page 3) :), (congrArg Pages.banks (page 4) :)⟩

/-- Settles O26: CAL_COMMIT past its two checks; the lowest selected page is the first that is written. -/
theorem calCommitBeginsTheLowestPage : Obligations.CalCommitBeginsTheLowestPage := by
  intro tag mask p s h low high store selected lowest
  have ok := cmdCalCommit_ok (s := s.listening) low high store selected lowest
  obtain ⟨t, next, inner, -, undisturbed, answered⟩ :=
    calCommand_ok (i := .calCommit tag mask) (tag := tag) (c := .calCommit mask) h rfl rfl ok
  exact ⟨t, next, inner, undisturbed, answered⟩

/-! ### Rows taken while the blocks work (R181, log 26) -/

theorem State.active_of_running {s : State} (h : s.phase = .running) : s.active = true := by
  simp [State.active, State.resetReady, h, Phase.up]

/-- A row that acts while the blocks work, in an active part. -/
theorem taken_whenUp {s : State} (f : State → State) (h : s.active = true) :
    taken (fun s => s.whenUp f) s = .next (f s) := by
  rw [taken_active _ h, State.whenUp, if_pos (State.up_of_active h)]

/-! ### The end of a page write (R132, R134) -/

/-- The Calibration Unit with page `p` finished at this tick; whether a page that fails its read-back holds a check that agrees
is the part's free value (log 11). -/
def State.finishedCal (s : State) (p : Fin 5) (agrees : Bool) : Cal :=
  s.cal.finishPage p agrees (Config.failedCheckAgrees s.freeDraw)

section Ended

variable {agrees : Bool} {p : Fin 5} {s : State} (page : s.cal.page = some p) (ends : s.cal.pageWriteEnd = some s.now)
include page ends

theorem pageWriteEnd_resetWait (wait : s.phase = .resetWait) :
    pageWriteEnd agrees s = (s.setFreeDraw (s.freeDraw + 1)).setCal (s.finishedCal p agrees) := by
  simp [pageWriteEnd, page, State.due, ends, wait, State.finishedCal]

theorem pageWriteEnd_next {q : Fin 5} {rest : List (Fin 5)} (running : s.phase = .running)
    (above : s.cal.commitMask.above p = q :: rest) :
    pageWriteEnd agrees s = (s.setFreeDraw (s.freeDraw + 1)).setCal
      ((s.finishedCal p agrees).beginPage q (s.expiryIn pageWriteTicks)) := by
  simp [pageWriteEnd, page, State.due, ends, running, State.finishedCal, Cal.finishPage, above]

theorem pageWriteEnd_last (running : s.phase = .running) (above : s.cal.commitMask.above p = []) :
    pageWriteEnd agrees s = appendEvent (.storeDone s.cal.commitMask (s.cal.outcomes ++ [(p, agrees)]))
      ((s.setFreeDraw (s.freeDraw + 1)).setCal (s.finishedCal p agrees).commitEnds) := by
  simp [pageWriteEnd, page, State.due, ends, running, State.finishedCal, Cal.finishPage, above]

end Ended

/-- Settles O27, by whether a selected page above the one that ends is left. -/
theorem pageWriteEndGoesOn : Obligations.PageWriteEndGoesOn := by
  intro agrees p s running page ends
  have row : exec (.pageWriteEnd agrees) s = .next (pageWriteEnd agrees s) :=
    taken_whenUp _ (State.active_of_running running)
  refine ⟨_, row, ?_⟩
  cases above : s.cal.commitMask.above p with
  | cons q rest =>
    rw [pageWriteEnd_next page ends running above]
    refine ⟨rfl, rfl, rfl, fun q' rest' same => ?_, nofun, rfl, rfl, rfl, rfl, rfl, rfl, rfl, rfl, rfl,
      .of_eq rfl rfl rfl rfl⟩
    obtain ⟨rfl, rfl⟩ := List.cons.inj same
    exact ⟨rfl, rfl, rfl, rfl, rfl, .of_evr rfl⟩
  | nil =>
    rw [pageWriteEnd_last page ends running above]
    have inner := appendEvent_inner (.storeDone s.cal.commitMask (s.cal.outcomes ++ [(p, agrees)]))
      ((s.setFreeDraw (s.freeDraw + 1)).setCal (s.finishedCal p agrees).commitEnds)
    obtain ⟨-, phase, -, tbu, pins, scu, rtu, pfm, mdu, hdu, lec, cal, -⟩ := inner_eq inner
    refine ⟨(congrArg Cal.stored cal :), (congrArg Cal.working cal :), (congrArg Cal.unsaved cal :), nofun,
      fun _ => ⟨(congrArg Cal.state cal :), (congrArg Cal.page cal :), (congrArg Cal.pageWriteEnd cal :),
        (congrArg Cal.lastCommit cal :), (congrArg Cal.invalid cal :), ?_⟩, scu, mdu, hdu, lec, rtu, pfm, tbu, pins, phase, ?_⟩
    · exact (appendEvent_reported _ _).after rfl rfl rfl rfl fun x => by cases x <;> rfl
    · refine Arbited.trans ?_ (appendEvent_arbited _ _)
      exact .of_eq rfl rfl rfl rfl

end Sys2Proof.Machine
end
section
/-! PROOFS. The reset wait and the soft reset (R134, R159, R164, R181): what the wait holds still, what the end of a frame and
the end of a page write still do in it, and what the part is when the reset has proceeded. -/

namespace Sys2Proof.Machine

/-! ### The outbound side outside running (R181, R182) -/

/-- But for the ring, the frame store and the Event Reporter the states are the same. -/
structure SourcesOnly (s t : State) : Prop where
  inner : t.inner = s.inner
  lnk   : t.lnk = s.lnk
  oba   : t.oba = s.oba

theorem SourcesOnly.refl (s : State) : SourcesOnly s s := ⟨rfl, rfl, rfl⟩

theorem SourcesOnly.trans {s t u : State} (h : SourcesOnly s t) (k : SourcesOnly t u) : SourcesOnly s u :=
  ⟨k.inner.trans h.inner, k.lnk.trans h.lnk, k.oba.trans h.oba⟩

theorem SourcesOnly.phase {s t : State} (h : SourcesOnly s t) : t.phase = s.phase := by
  obtain ⟨-, phase, -⟩ := inner_eq h.inner
  exact phase

theorem SourcesOnly.setLas (s : State) (x : Las) : SourcesOnly s (s.setLas x) := ⟨rfl, rfl, rfl⟩
theorem SourcesOnly.setPhu (s : State) (x : Phu) : SourcesOnly s (s.setPhu x) := ⟨rfl, rfl, rfl⟩

/-- Outside running a change of a condition waits or is lost; no frame begins (R175, R181). -/
theorem reportChange_sourcesOnly (c : Condition) (a b : Bool) {s : State} (h : s.phase ≠ .running) :
    SourcesOnly s (reportChange c a b s) := by
  unfold reportChange reportEdge
  split
  · exact .refl s
  · split
    · rw [appendEvent_quiet _ s (.inr h)]; exact ⟨rfl, rfl, rfl⟩
    · exact .refl s

theorem chunkSent_sourcesOnly (i : Fin 8) {s : State} (h : s.phase ≠ .running) : SourcesOnly s (chunkSent i s) := by
  unfold chunkSent
  dsimp only
  split
  · exact (SourcesOnly.setLas s _).trans (reportChange_sourcesOnly _ _ _ h)
  · exact .setLas s _

theorem startExposure_sourcesOnly (i : Fin 2) {s : State} (h : s.phase ≠ .running) :
    SourcesOnly s (startExposure i s) := by
  unfold startExposure
  split
  · exact .refl s
  · split
    · exact .refl s
    · exact (SourcesOnly.setPhu s _).trans (reportChange_sourcesOnly _ _ _ h)

theorem framePartSent_sourcesOnly (i : Fin 2) {s : State} (h : s.phase ≠ .running) :
    SourcesOnly s (framePartSent i s) := by
  unfold framePartSent
  dsimp only
  split
  · have freed := (SourcesOnly.setPhu s { s.phu.setFrame i FrameSlot.free with source := s.phu.source.tail }).trans
      (reportChange_sourcesOnly .framesFull s.phu.freeFrame.isNone
        { s.phu.setFrame i FrameSlot.free with source := s.phu.source.tail }.freeFrame.isNone h)
    split
    · exact freed.trans (startExposure_sourcesOnly i (fun k => h (freed.phase.symm.trans k)))
    · exact freed
  · exact .setPhu s _

theorem itemSent_sourcesOnly (x : LaneItem) {s : State} (h : s.phase ≠ .running) : SourcesOnly s (itemSent x s) := by
  cases x with
  | lineChunk i => exact chunkSent_sourcesOnly i h
  | framePart i => exact framePartSent_sourcesOnly i h
  | ready | reply | event | sweepEnd | tileReport => exact .refl s

/-- Outside running a held command is not taken (R164, R181). -/
theorem dispatchHeld_not_running {s : State} (h : s.phase ≠ .running) : dispatchHeld s = s := by
  unfold dispatchHeld
  split
  · exact if_neg fun k => h k.1
  · rfl

/-- The end of the lane's frame outside running: its item goes on, the lane is idle, and no further frame begins. -/
theorem outboundFrameEnd_not_running {s : State} {x : Sending} (h : s.phase ≠ .running) (lane : s.oba.lane = some x)
    (ends : x.endTick = s.now) : outboundFrameEnd s = (itemSent x.item s).setOba { s.oba with lane := none } := by
  have sent := itemSent_sourcesOnly x.item h
  have still : ((itemSent x.item s).setOba { s.oba with lane := none }).phase ≠ .running :=
    fun k => h (sent.phase.symm.trans k)
  simp only [outboundFrameEnd, lane, ends, if_true, sent.oba]
  rw [boundary_not_running _ still, dispatchHeld_not_running still]

/-! ### The reset wait (R181) -/

/-- The row of a host command is its frame at the receiver (log 4). -/
theorem exec_hostRow (tag : Byte) (c : HostCmd) (s : State) :
    exec (hostRow tag c) s = taken (receiveCommand tag c) s := by
  cases c <;> rfl

theorem State.resetReady_iff (s : State) :
    s.resetReady = true ↔ s.phase = .resetWait ∧ s.oba.lane = none ∧ s.cal.page = none := by
  simp [State.resetReady, and_assoc]

/-- While a frame is being sent or a page write is in progress the reset does not proceed. -/
theorem State.resetReady_of_held {s : State} (held : s.oba.lane ≠ none ∨ s.cal.page ≠ none) : s.resetReady = false := by
  refine Bool.eq_false_iff.2 fun ready => ?_
  obtain ⟨-, lane, page⟩ := s.resetReady_iff.1 ready
  exact held.elim (· lane) (· page)

theorem not_running_of_resetWait {s : State} (wait : s.phase = .resetWait) : s.phase ≠ .running := by rw [wait]; decide

section Wait

variable {s : State} (wait : s.phase = .resetWait) (held : s.oba.lane ≠ none ∨ s.cal.page ≠ none)
include wait held

theorem active_of_held : s.active = true := by
  rw [State.active, State.resetReady_of_held held, wait]; rfl

/-- No command frame is heard in the reset wait. -/
theorem taken_receiveFrame_of_held (f : Frame) : taken (receiveFrame f) s = .next s := by
  rw [taken_active _ (active_of_held wait held), receiveFrame_not_running f s (not_running_of_resetWait wait)]

/-- No inbound byte is heard in the reset wait. -/
theorem taken_feed_of_held (bytes : List Byte) : taken (fun s => s.whenUp (feed bytes)) s = .next s := by
  rw [taken_whenUp _ (active_of_held wait held), feed_not_running bytes s (not_running_of_resetWait wait)]

theorem exec_outboundFrameEnd_of_held {x : Sending} (lane : s.oba.lane = some x) (ends : x.endTick = s.now) :
    exec .outboundFrameEnd s = .next ((itemSent x.item s).setOba { s.oba with lane := none }) := by
  rw [← outboundFrameEnd_not_running (not_running_of_resetWait wait) lane ends]
  exact taken_whenUp _ (active_of_held wait held)

theorem exec_pageWriteEnd_of_held {p : Fin 5} (agrees : Bool) (page : s.cal.page = some p)
    (ends : s.cal.pageWriteEnd = some s.now) :
    exec (.pageWriteEnd agrees) s = .next ((s.setFreeDraw (s.freeDraw + 1)).setCal (s.finishedCal p agrees)) := by
  rw [← pageWriteEnd_resetWait page ends wait]
  exact taken_whenUp _ (active_of_held wait held)

end Wait

/-! ### The soft reset (R181) -/

/-- After a soft reset the part loads, and no reset wait stands any more. -/
theorem softResetProceed_idem (s : State) : softResetProceed (softResetProceed s) = softResetProceed s := by
  cases ready : s.resetReady with
  | false => rw [softResetProceed_not_ready ready, softResetProceed_not_ready ready]
  | true => rw [softResetProceed_ready ready]; exact softResetProceed_not_ready rfl

theorem taken_softResetProceed (f : State → State) (s : State) : taken f (softResetProceed s) = taken f s := by
  rw [taken, softResetProceed_idem]; rfl

/-- Every row but the reset's own is an effect on the part as a proceeding reset has left it (R181, log 5). -/
theorem exec_eq_taken (c : Instr) (h : c ≠ .softResetProceed) : ∃ f : State → State, ∀ s, exec c s = taken f s := by
  cases c
  case softResetProceed => exact absurd rfl h
  all_goals
    simp only [exec]
    exact ⟨_, fun _ => rfl⟩

/-- No command acts between the end of the wait and the reset: whichever comes finds the part as the reset leaves it (log 5). -/
theorem exec_softResetProceed (c : Instr) (s : State) : exec c (softResetProceed s) = exec c s := by
  by_cases own : c = .softResetProceed
  · subst own; exact congrArg Host.Outcome.next (softResetProceed_idem s)
  · obtain ⟨f, row⟩ := exec_eq_taken c own
    rw [row, row, taken_softResetProceed]

/-- The Calibration Unit starts up LOADING, on the store as it stands (R125, R127). -/
theorem Cal.startUp_store (c : Cal) : c.startUp.state = .loading ∧ c.startUp.stored = c.stored :=
  have kept := Cal.load_kept { c with
    state := .loading, commitMask := 0, page := none, pageWriteEnd := none, outcomes := [], lastCommit := none } 31
  ⟨kept.state, kept.stored⟩

/-- RESET of length 0 is taken without a reply (R164, R181). -/
theorem exec_reset (tag : Byte) {s : State} (h : Accepts s) :
    exec (.reset tag) s = .next (s.listening.setPhase .resetWait) := by
  refine (taken_running (receiveCommand tag .reset) h.1).trans ?_
  rw [receiveCommand_accepts tag .reset s h rfl]
  rfl

/-- Settles O58: the wait by what it holds still, and the reset by what its start-up sets. -/
theorem softResetWaitsThenProceeds : Obligations.SoftResetWaitsThenProceeds := by
  intro tag s
  refine ⟨exec_reset tag, fun wait held => ?_, fun wait lane page => ?_⟩
  · have bytes := taken_feed_of_held wait held
    refine ⟨congrArg Host.Outcome.next (softResetProceed_not_ready (State.resetReady_of_held held)),
      fun c => (exec_hostRow tag c s).trans (taken_receiveFrame_of_held wait held _),
      fun kind payload => taken_receiveFrame_of_held wait held _, fun b => ⟨bytes b, bytes b, bytes b⟩,
      fun x lane ends => ?_, fun agrees p page ends => ?_⟩
    · have sent := itemSent_sourcesOnly x.item (not_running_of_resetWait wait)
      refine ⟨_, exec_outboundFrameEnd_of_held wait held lane ends, rfl, sent.lnk, sent.inner, fun item => ?_⟩
      rcases item with item | item | item | item | item <;> rw [item] <;> rfl
    · refine ⟨_, exec_pageWriteEnd_of_held wait held agrees page ends, rfl, rfl, fun ok => ?_⟩
      rw [ok]; rfl
  · have ready := s.resetReady_iff.2 ⟨wait, lane, page⟩
    have proceeds := softResetProceed_ready ready
    obtain ⟨loading, stored⟩ := s.cal.startUp_store
    exact ⟨startUp .soft s, congrArg Host.Outcome.next proceeds, rfl, rfl, rfl, rfl, rfl, rfl, rfl, rfl, rfl, rfl, rfl,
      rfl, rfl, rfl, rfl, rfl, rfl, rfl, loading, stored, fun c => by rw [← proceeds, exec_softResetProceed]⟩

end Sys2Proof.Machine
end
